-- ==== Sys2Proof/Word.lean ====
section
/-! DEFINITION. Numbers and bits (00_scope.md R9): every value of the block is a non-negative integer, and a value
of k bits is an integer below `2 ^ k`. Widths are parameters of the instance (R6), so a register, an element, a code
or a command word is a `Nat` with a bound stated by the invariant, never a type whose width varies. -/

namespace Sys2Proof

/-- The k-bit value a bundle of k wires carries when `v` is put on it (R9: a slice of the low k bits). -/
def lowBits (k v : Nat) : Nat := v % 2 ^ k

end Sys2Proof
end

