-- ==== Sys2Proof/Config.lean ====
section
/-! DEFINITION. The elaboration-time parameters of an instance (00_scope.md R6, R7), the one instance `State.reset`
uses, and the free values: what the spec leaves to `draw` (R12) or leaves free, as constants with no body. -/

namespace Sys2Proof

/-- How the two pointer crossings are modelled. The spec gives both: `abstract` is the abstract synchronizer of
45_synchronizer.md R129, which a model uses in place of the chains; `chains` is the register-transfer level of R124. -/
inductive SyncModel where
  | abstract
  | chains
  deriving DecidableEq, Repr

/-- The parameters of R6 before they are checked. -/
structure RawParams where
  /-- `DATA_W`: element width in bits. -/
  dataW : Nat
  /-- `CAPACITY`, written `cap` in the rules (10_state.md R16). -/
  cap : Nat
  /-- `PTR_MOD`, written `M`: modulus of the crossing pointers. -/
  ptrMod : Nat
  /-- `SYNC_STAGES`, written `S`: flip-flops in each synchronizer chain. -/
  syncStages : Nat
  /-- `ARG_W`: width of the read-port argument field. -/
  argW : Nat
  /-- `TEXT_SENTINEL`: terminator of writeText. -/
  textSentinel : Nat
  /-- `TEXT_MAX_SCAN`: default maxScan of writeText. -/
  textMaxScan : Nat
  /-- The model's own: which account of the synchronizers the instance is run with. -/
  sync : SyncModel
  deriving DecidableEq, Repr

/-- The legal values of R6. `PTR_MOD` is a multiple of `CAPACITY`, even, and at least twice `CAPACITY`. -/
abbrev RawParams.Legal (r : RawParams) : Prop :=
  1 ≤ r.dataW ∧ 2 ≤ r.cap ∧ r.cap ≤ 2 ^ r.argW ∧ r.ptrMod % r.cap = 0 ∧ r.ptrMod % 2 = 0 ∧
    2 * r.cap ≤ r.ptrMod ∧ 2 ≤ r.syncStages ∧ 1 ≤ r.argW ∧ r.textSentinel < 2 ^ 8

/-- The parameters of an instance. An illegal set has no instance (R7, 60_exceptions.md R138), so the check is
part of the type: no state with illegal parameters can be built. -/
structure Params extends RawParams where
  legal : toRawParams.Legal
  deriving DecidableEq, Repr

/-- DESIGN CHOICE (log 1): the instance of `State.reset`. R6 gives `DATA_W` and `CAPACITY` no default; these are the
values 95_test_vectors.md uses "unless stated" and its state E. Every general claim is for every `Params`. -/
def Params.default : Params where
  dataW := 8
  cap := 10
  ptrMod := 20
  syncStages := 2
  argW := 16
  textSentinel := 0
  textMaxScan := 255
  sync := .abstract
  legal := by decide

/-- The two ports (30_encoding.md R56, R57), each with its own clock domain. -/
inductive Port where
  | producer
  | consumer
  deriving DecidableEq, Repr

/-- The four agents of 45_synchronizer.md R130. -/
inductive Agent where
  | writeDomain
  | readDomain
  | syncW2R
  | syncR2W
  deriving DecidableEq, Repr, Inhabited

/-! Free values (R12 `draw`): nothing in Lean can evaluate one or prove a value of it. Each is applied to the counter
`State.draws`, so that every use is a fresh choice. Log 6 names them all. -/

/-- `draw(DATA_W)` of a raced read (44_read_port.md R114) and of an out-of-contract GET_NTH (R122), before it is cut to
DATA_W bits. -/
opaque Config.freeElem : Nat → Nat

/-- `draw(DATA_W)` per slot: the storage contents at power-up (10_state.md R30), by slot. -/
opaque Config.freePowerUp : Nat → Nat

/-- `draw([0, M-1])`: what decoding an invalid Gray code gives (41_gray_counter.md R88), by view. -/
opaque Config.freePointer : Port → Nat → Nat

/-- Which of the values the source held a synchronizer's first stage captures (45_synchronizer.md R125). -/
opaque Config.freeSample : Nat → Nat

/-- Which agent takes the next step when nothing is scheduled (20_memory.md R46). -/
opaque Config.freeAgent : Nat → Agent

/-- Whether a free domain step presents its port's next command or a NOP (45_synchronizer.md R130). -/
opaque Config.freePresent : Nat → Bool

/-- How far a free synchronizer step moves its view (45_synchronizer.md R129). -/
opaque Config.freeAdvance : Nat → Nat

end Sys2Proof
end

