-- ==== Sys2Proof/Syntax.lean ====
section
/-! DEFINITION. The commands of the two ports, one constructor for each row of spec/opcode_table.json
(30_encoding.md R64, R65). Ignored fields (R67) are no operands: a command that ignores its field has none. -/

namespace Sys2Proof

/-- A command of either port. -/
inductive Instr where
  /-- W_NOP (43_write_port.md R106). -/
  | wNop
  /-- WRITE (R107): append the element `v`. -/
  | write (v : Nat)
  /-- R_NOP (44_read_port.md R117). -/
  | rNop
  /-- PEEK (R118): up to `maxLength` oldest elements. -/
  | peek (maxLength : Nat)
  /-- DELETE_OLDEST (R120): discard up to `count` oldest elements. -/
  | deleteOldest (count : Nat)
  /-- LENGTH (R121). -/
  | length
  /-- GET_NTH (R122): the `index`-th newest element, unchecked. -/
  | getNth (index : Nat)
  /-- GET_NTH_CHECKED (R123): the `index`-th newest element, checked. -/
  | getNthChecked (index : Nat)
  deriving DecidableEq, Repr

/-- The port a command belongs to (60_exceptions.md R148: the producer port cannot issue read commands and the
consumer port cannot issue WRITE). -/
def Instr.port : Instr → Port
  | .wNop => .producer
  | .write _ => .producer
  | .rNop => .consumer
  | .peek _ => .consumer
  | .deleteOldest _ => .consumer
  | .length => .consumer
  | .getNth _ => .consumer
  | .getNthChecked _ => .consumer

end Sys2Proof
end

