-- ==== Sys2Proof/WellFormed.lean ====
section
/-! DEFINITION. A command is well formed for an instance when its operand fits its field (30_encoding.md R62, R63,
R69: an operand that does not fit is rejected). -/

namespace Sys2Proof

/-- The operand of the command fits the field of its port's format. -/
def Instr.wellFormed (p : Params) : Instr → Bool
  | .wNop => true
  | .write v => decide (v < 2 ^ p.dataW)
  | .rNop => true
  | .peek a => decide (a < 2 ^ p.argW)
  | .deleteOldest a => decide (a < 2 ^ p.argW)
  | .length => true
  | .getNth a => decide (a < 2 ^ p.argW)
  | .getNthChecked a => decide (a < 2 ^ p.argW)

end Sys2Proof
end

