-- ==== Sys2Proof/Decode.lean ====
section
/-! DEFINITION. Command words (30_encoding.md R60, R61, R64 to R68): the decoder, total on every word and rejecting by
name, and after it the encoder, written from the same formats. A word of a port is the number `{op, field}` with the
field in the low bits. -/

namespace Sys2Proof

/-- Why a word is no command of a port. -/
inductive DecodeError where
  /-- A reserved opcode (R66). -/
  | reservedOpcode (port : Port) (op : Nat)
  /-- The number does not fit the port's wires (R68: one fixed length for each port). -/
  | wordTooWide (port : Port) (word : Nat)
  deriving DecidableEq, Repr

/-- Width of the port's low field: `w_data` (R60) or `r_arg` (R61). -/
def fieldWidth (p : Params) : Port → Nat
  | .producer => p.dataW
  | .consumer => p.argW

/-- Width of the port's opcode (R60, R61). -/
def opWidth : Port → Nat
  | .producer => 2
  | .consumer => 3

/-- Width of the port's command word (R68): DATA_W + 2 or ARG_W + 3 bits. -/
def wordWidth (p : Params) (port : Port) : Nat := fieldWidth p port + opWidth port

/-- The opcode field of a word: the bits above the low field. -/
def opField (p : Params) (port : Port) (w : Nat) : Nat := w / 2 ^ fieldWidth p port

/-- The low field of a word. -/
def lowField (p : Params) (port : Port) (w : Nat) : Nat := lowBits (fieldWidth p port) w

/-- The producer port's opcode map (R64), with R66 for the rest. -/
def decodeProducer (op data : Nat) : Except DecodeError Instr :=
  match op with
  | 0 => .ok .wNop
  | 1 => .ok (.write data)
  | op => .error (.reservedOpcode .producer op)

/-- The consumer port's opcode map (R65), with R66 for the rest. -/
def decodeConsumer (op arg : Nat) : Except DecodeError Instr :=
  match op with
  | 0 => .ok .rNop
  | 1 => .ok (.peek arg)
  | 2 => .ok (.deleteOldest arg)
  | 3 => .ok .length
  | 4 => .ok (.getNth arg)
  | 5 => .ok (.getNthChecked arg)
  | op => .error (.reservedOpcode .consumer op)

/-- The command a word means on a port (R68: a decoder knows which port a word came from). -/
def decode (p : Params) (port : Port) (w : Nat) : Except DecodeError Instr :=
  if w < 2 ^ wordWidth p port then
    match port with
    | .producer => decodeProducer (opField p .producer w) (lowField p .producer w)
    | .consumer => decodeConsumer (opField p .consumer w) (lowField p .consumer w)
  else .error (.wordTooWide port w)

/-- The opcode of a command (R64, R65). -/
def opcode : Instr → Nat
  | .wNop => 0
  | .write _ => 1
  | .rNop => 0
  | .peek _ => 1
  | .deleteOldest _ => 2
  | .length => 3
  | .getNth _ => 4
  | .getNthChecked _ => 5

/-- The low field of a command's canonical word: its operand, or zero where the field is ignored (R67). -/
def operandField : Instr → Nat
  | .wNop => 0
  | .write v => v
  | .rNop => 0
  | .peek a => a
  | .deleteOldest a => a
  | .length => 0
  | .getNth a => a
  | .getNthChecked a => a

/-- The canonical word of a command (R60, R61, R67). -/
def encode (p : Params) (i : Instr) : Nat :=
  opcode i * 2 ^ fieldWidth p i.port + operandField i

/-- The port a row of spec/opcode_table.json belongs to, by its length in whole bytes: 10 bits (format W) are two
bytes, 19 bits (format R) are three. The table is for DATA_W = 8 and ARG_W = 16. -/
def tablePort (nbits : Nat) : Port := if nbits ≤ 16 then .producer else .consumer

/-- The command the decoder reads from a word numbered as spec/opcode_table.json numbers it. -/
def decodeTableWord (nbits w : Nat) : Option Instr :=
  match decode Params.default (tablePort nbits) w with
  | .ok i => some i
  | .error _ => none

end Sys2Proof
end

