-- ==== Sys2Proof/Machine/Pointer.lean ====
section
/-! DEFINITION. The pointer_generator (42_pointer_generator.md): the modulo arithmetic both domains use, each function
by its formula, and beside it the hardware form the rule gives. Inputs are pointers in `[0, M-1]`; every function is
total. -/

namespace Sys2Proof.Machine

/-- `clog2(x)`: the least `n` with `2 ^ n ≥ x` (00_scope.md R6). -/
def clog2 (x : Nat) : Nat := if x ≤ 1 then 0 else (x - 1).log2 + 1

/-- `PW = clog2(M)`: width of a binary or Gray pointer (R6). -/
def ptrWidth (p : Params) : Nat := clog2 p.ptrMod

/-- `CW = clog2(CAPACITY)`: width of a count (R6). -/
def countWidth (p : Params) : Nat := clog2 p.cap

/-- `PG.inc(p) = (p + 1) mod M` (R93). -/
def pgInc (p : Params) (a : Nat) : Nat := (a + 1) % p.ptrMod

/-- Hardware form of `PG.inc` (R93). -/
def pgIncHw (p : Params) (a : Nat) : Nat := if a = p.ptrMod - 1 then 0 else a + 1

/-- `PG.add(p, k) = (p + k) mod M` (R94). -/
def pgAdd (p : Params) (a k : Nat) : Nat := (a + k) % p.ptrMod

/-- Hardware form of `PG.add` (R94). -/
def pgAddHw (p : Params) (a k : Nat) : Nat := if p.ptrMod ≤ a + k then a + k - p.ptrMod else a + k

/-- `PG.sub(p, k) = (p - k) mod M` (R95), the remainder in `[0, M-1]` also where `k` exceeds `p` (00_scope.md R9). -/
def pgSub (p : Params) (a k : Nat) : Nat := (a + (p.ptrMod - k % p.ptrMod)) % p.ptrMod

/-- Hardware form of `PG.sub` (R95). -/
def pgSubHw (p : Params) (a k : Nat) : Nat := if k ≤ a then a - k else a + p.ptrMod - k

/-- `PG.dist(a, b) = PG.sub(a, b)`: how far `a` is ahead of `b` (R96). -/
def pgDist (p : Params) (a b : Nat) : Nat := pgSub p a b

/-- `PG.idx(p) = p mod cap`: the storage slot of a pointer (R97). -/
def pgIdx (p : Params) (a : Nat) : Nat := a % p.cap

/-- `PG.eff_tail(R, Wv)`: the tail seen from the write pointer `wv`, eviction absorbed (R98). -/
def pgEffTail (p : Params) (r wv : Nat) : Nat :=
  if pgDist p wv r ≤ p.cap - 1 then r else pgSub p wv (p.cap - 1)

/-- `PG.count(R, Wv) = PG.dist(Wv, PG.eff_tail(R, Wv))`: occupancy (R99). -/
def pgCount (p : Params) (r wv : Nat) : Nat := pgDist p wv (pgEffTail p r wv)

/-- `PG.wcount(W, RPv) = min(PG.dist(W, RPv), cap - 1)`: write-side estimate (R100). -/
def pgWcount (p : Params) (w rpv : Nat) : Nat := min (pgDist p w rpv) (p.cap - 1)

/-- `PG.nth_idx(Wv, i)`: slot of the i-th newest element, in its hardware form (R101), in range for every `i`. -/
def pgNthIdx (p : Params) (wv i : Nat) : Nat := (wv % p.cap + p.cap - 1 - i % p.cap) % p.cap

/-- `PG.step(RP, R)`: the published pointer moves one step towards `r` (R102). -/
def pgStep (p : Params) (rp r : Nat) : Nat := if rp = r then rp else pgInc p rp

end Sys2Proof.Machine
end

