-- ==== Sys2Proof/Machine/Gray.lean ====
section
/-! DEFINITION. The gray_counter (41_gray_counter.md): the offset reflected Gray code of a pointer, its decoder, and the
counter component of which the block has two instances. -/

namespace Sys2Proof.Machine

/-- Reflected binary Gray code (R85). -/
def gray (x : Nat) : Nat := x ^^^ (x >>> 1)

/-- Inverse of the n-bit reflected code (R85): `g XOR (g >> 1) XOR ... XOR (g >> (n-1))`. -/
def ungray : Nat → Nat → Nat
  | 0, _ => 0
  | n + 1, g => ungray n g ^^^ (g >>> n)

/-- `o = (2^PW - M) / 2` (00_scope.md R6): the offset that centres the M codes. -/
def grayOffset (p : Params) : Nat := (2 ^ ptrWidth p - p.ptrMod) / 2

/-- `G(b) = gray(b + o)`: the code of a pointer (R86). -/
def code (p : Params) (b : Nat) : Nat := gray (b + grayOffset p)

/-- Whether a code is one of the M valid ones (R88): `ungray(g)` lies in `[o, o + M - 1]`. -/
def validCode (p : Params) (g : Nat) : Bool :=
  decide (g < 2 ^ ptrWidth p) && decide (grayOffset p ≤ ungray (ptrWidth p) g) &&
    decide (ungray (ptrWidth p) g < grayOffset p + p.ptrMod)

/-- The decoder of a view: `ungray(g) - o` for a valid code (R87), and any pointer for an invalid one (R88), a free
value taken at draw `n` by the view of `port`'s domain. -/
def decodeCode (p : Params) (port : Port) (n g : Nat) : Nat :=
  if validCode p g then ungray (ptrWidth p) g - grayOffset p else Config.freePointer port n % p.ptrMod

/-- The two registers of a gray_counter (R90). -/
structure GrayCounter where
  bin : Nat
  gray : Nat
  deriving DecidableEq, Repr

/-- A gray_counter in reset (R90). -/
def GrayCounter.atReset (p : Params) : GrayCounter := ⟨0, code p 0⟩

/-- A rising edge of a gray_counter's clock out of reset, with its enable (R90). -/
def GrayCounter.edge (p : Params) (en : Bool) (c : GrayCounter) : GrayCounter :=
  if en then ⟨pgInc p c.bin, code p (pgInc p c.bin)⟩ else c

end Sys2Proof.Machine
end

