-- ==== Sys2Proof/Machine/Chain.lean ====
section
/-! DEFINITION. A synchronizer (45_synchronizer.md): the S flip-flops that carry one Gray-coded pointer into the other
clock domain, with the ghost absolute value of each stage. `WS[1..S]` and `RS[1..S]` are the two instances. -/

namespace Sys2Proof.Machine

/-- One crossing. `stages` are the hardware registers, stage 1 first. `abs` is the ghost beside each stage (the last is
`Wv_abs` or `RPv_abs`, 10_state.md R34). `held` is the model's own: the codes the source register held since the last edge
of the chain's clock out of reset, newest first, without the one it holds now (log 5). -/
structure SyncChain where
  stages : List Nat
  abs : List Nat
  held : List Nat
  deriving DecidableEq, Repr

namespace SyncChain

/-- A chain in reset (R124, 70_reset_and_hazards.md R154): every stage holds `G(0)`. -/
def atReset (p : Params) : SyncChain :=
  ⟨List.replicate p.syncStages (code p 0), List.replicate p.syncStages 0, []⟩

/-- The last stage, the only one a view is decoded from (R127). -/
def lastStage (c : SyncChain) : Nat := c.stages.getLastD 0

/-- The absolute value of the view (10_state.md R34, R129). -/
def viewAbs (c : SyncChain) : Nat := c.abs.getLastD 0

/-- The view: `G⁻¹` of the last stage (R127), decoded in the domain of `port`. -/
def view (p : Params) (port : Port) (n : Nat) (c : SyncChain) : Nat := decodeCode p port n c.lastStage

/-- A shift register's contents after an edge: `x` enters at stage 1. -/
def shiftIn (x : Nat) (l : List Nat) : List Nat := (x :: l).take l.length

/-- How many source values back the captured one lies (R125): the present one where the source did not change since the
last edge, else any of those it held. -/
def sampleBack (n : Nat) (c : SyncChain) : Nat :=
  match c.held with
  | [] => 0
  | _ :: _ => Config.freeSample n % (c.held.length + 1)

/-- An edge of the chain's clock out of reset (R124): stage 1 captures `sample` of the source register (R125) and every
other stage copies the one before. Under the abstract synchronizer the shift is dropped (R129). -/
def capture (p : Params) (n src srcAbs : Nat) (c : SyncChain) : SyncChain :=
  match p.sync with
  | .abstract => c
  | .chains =>
    let back := sampleBack n c
    ⟨shiftIn ((src :: c.held).getD back src) c.stages, shiftIn (srcAbs - back) c.abs, []⟩

/-- The source register left the code `old` at an edge of its own clock: a capture in the same window may still see it
(R125). -/
def sourceMoved (p : Params) (old : Nat) (c : SyncChain) : SyncChain :=
  match p.sync with
  | .abstract => c
  | .chains => { c with held := old :: c.held }

/-- The abstract synchronizer's step (R129): the view becomes the source value of absolute count `k`. -/
def jump (p : Params) (k : Nat) (c : SyncChain) : SyncChain :=
  { c with stages := List.replicate p.syncStages (code p (k % p.ptrMod)), abs := List.replicate p.syncStages k }

end SyncChain

end Sys2Proof.Machine
end

