-- ==== Sys2Proof/Machine/Storage.lean ====
section
/-! DEFINITION. The storage RAM (00_scope.md R11, 10_state.md R30, 20_memory.md R36 to R40): slots of one element, the
only access width. It is the list of the slots written since power-up with what they hold, in one canonical form: slots
strictly rising, each in range, each element of DATA_W bits. A slot that is not listed holds its power-up content, a free
value of its own (log 7). -/

namespace Sys2Proof.Machine

/-- The written slots of the storage, slot by slot. -/
abbrev Storage := List (Nat × Nat)

namespace Storage

/-- What a slot nothing has written holds: its power-up draw, DATA_W bits (R30). -/
def powerUp (dataW slot : Nat) : Nat := lowBits dataW (Config.freePowerUp slot)

/-- The element listed for a slot. -/
def find? (slot : Nat) : Storage → Option Nat
  | [] => none
  | (k, v) :: rest => if k = slot then some v else find? slot rest

/-- `MemRead(slot, 1)` (R11). -/
def read (dataW : Nat) (m : Storage) (slot : Nat) : Nat := (m.find? slot).getD (powerUp dataW slot)

/-- The storage with `v` listed for a slot, in rising order. -/
def insert (slot v : Nat) : Storage → Storage
  | [] => [(slot, v)]
  | (k, u) :: rest =>
    if slot < k then (slot, v) :: (k, u) :: rest
    else if slot = k then (slot, v) :: rest
    else (k, u) :: insert slot v rest

/-- `MemWrite(slot, 1, v)` (R11): exactly the DATA_W bits of the element are stored (30_encoding.md R62). -/
def write (dataW : Nat) (m : Storage) (slot v : Nat) : Storage := m.insert slot (lowBits dataW v)

/-- Every listed slot is above `low` and the slots rise strictly. -/
def risingFrom : Nat → Storage → Bool
  | _, [] => true
  | low, (k, _) :: rest => decide (low ≤ k) && risingFrom (k + 1) rest

/-- The canonical form: slots strictly rising and below `cap`, elements of `dataW` bits. -/
def wf (dataW cap : Nat) (m : Storage) : Bool :=
  risingFrom 0 m && m.all fun c => decide (c.1 < cap) && decide (c.2 < 2 ^ dataW)

end Storage

end Sys2Proof.Machine
end

