-- ==== Sys2Proof/Machine/State.lean ====
section
/-! DEFINITION. The state of an instance (10_state.md): parameters, storage, the registers of both domains, the reset
pins, the ghosts, and the plain data through which the outside drives the ports and the interleaving. -/

namespace Sys2Proof.Machine

/-- Why the machine stops with a fault: never. No rule raises one (00_scope.md R12, 60_exceptions.md R134, R140). -/
inductive Fault where
  deriving DecidableEq, Repr

/-- Why the model gives no meaning. Every one is safe: nothing is claimed of what would follow. -/
inductive Refusal where
  /-- A command whose arm of `exec` has no meaning; no arm answers it. Safe. -/
  | notModelled (mnemonic : String)
  /-- Raised by `step` when a port accepts a reserved opcode: "a model must refuse a program that contains one"
  (30_encoding.md R66). Safe. -/
  | reservedOpcode (port : Port) (op : Nat)
  /-- Raised by `step` when a driver's word does not fit its port's wires (R68): there is no such word. Safe. -/
  | wordTooWide (port : Port) (word : Nat)
  /-- Raised by `step` where one domain's reset is asserted alone and the other domain, which has left its reset state,
  takes an edge or a view, or the reset is released before both were asserted (70_reset_and_hazards.md R157, log 12).
  Safe. -/
  | partialReset
  /-- Raised by a scheduled synchronizer step whose target is not between the view and its source (45_synchronizer.md
  R129): there is no such step. Safe. -/
  | syncOutOfRange (target : Nat)
  /-- Raised by a scheduled synchronizer step where the chains of R124 are modelled: they have no such agent. Safe. -/
  | noSyncStep
  /-- Raised by elaboration (00_scope.md R7) and by level-A `init` with a capacity below 2 (R75). Safe. -/
  | invalidConstruction
  /-- Raised by writeText: the text ends before a sentinel or maxScan elements (40_reference_operations.md R83). Safe. -/
  | textUnterminated
  /-- Raised by writeText on an instance whose DATA_W is not 8 (43_write_port.md R111). Safe. -/
  | textNotByte
  deriving DecidableEq, Repr

/-- The six response registers (10_state.md R29), a beat of the response channel (30_encoding.md R57). -/
structure Response where
  valid : Bool
  hasData : Bool
  data : Nat
  len : Nat
  flag : Bool
  last : Bool
  deriving DecidableEq, Repr

/-- No response: the registers' reset value and their default at every read-domain edge (44_read_port.md R113). -/
def Response.none : Response := ⟨false, false, 0, 0, false, false⟩

/-- The five PEEK registers (10_state.md R29). -/
structure PeekRegs where
  active : Bool
  base : Nat
  n : Nat
  j : Nat
  trunc : Bool
  deriving DecidableEq, Repr

/-- The PEEK registers in reset. -/
def PeekRegs.atReset : PeekRegs := ⟨false, 0, 0, 0, false⟩

/-- One event of a schedule (30_encoding.md R73, 45_synchronizer.md R130, 70_reset_and_hazards.md R154 to R158). -/
inductive Event where
  /-- A rising edge of `wclk`. `present`: the driver presents its next command, else a NOP. -/
  | wclk (present : Bool)
  /-- A rising edge of `rclk`, as `wclk`. -/
  | rclk (present : Bool)
  /-- SyncW2R (R129): to the absolute count given, or all the way. -/
  | syncW2R (target : Option Nat)
  /-- SyncR2W (R129). -/
  | syncR2W (target : Option Nat)
  /-- The one-step reset of the whole block (R154). -/
  | reset
  /-- The reset pins take these levels (R154, R156). -/
  | pins (wrstN rrstN : Bool)
  deriving DecidableEq, Repr

/-- The state of an instance. -/
structure State where
  /-- The instance's parameters (00_scope.md R6); no step changes them. -/
  params : Params
  /-- `storage` (10_state.md R30). -/
  storage : Storage
  /-- `W_bin` (R28). -/
  wBin : Nat
  /-- `W_gray` (R28). -/
  wGray : Nat
  /-- `RS[1..S]` (R28), carrying `RP_gray` into the write domain. -/
  rs : SyncChain
  /-- `R_bin` (R29). -/
  rBin : Nat
  /-- `RP_bin` (R29). -/
  rpBin : Nat
  /-- `RP_gray` (R29). -/
  rpGray : Nat
  /-- `WS[1..S]` (R29), carrying `W_gray` into the read domain. -/
  ws : SyncChain
  /-- The `pk_*` registers (R29). -/
  pk : PeekRegs
  /-- The `rsp_*` registers (R29). -/
  rsp : Response
  /-- Level of `wrst_n` (30_encoding.md R56). -/
  wrstN : Bool
  /-- Level of `rrst_n` (30_encoding.md R57). -/
  rrstN : Bool
  /-- The model's own: the domain whose reset is asserted alone, the other having left its reset state, in a reset of the
  block that is not complete (70_reset_and_hazards.md R156, R157, log 12). -/
  resetAlone : Option Port
  /-- Ghost `W_abs` (R34). -/
  wAbs : Nat
  /-- Ghost `R_abs` (R34). -/
  rAbs : Nat
  /-- Ghost `RP_abs` (R34). -/
  rpAbs : Nat
  /-- Ghost `pk_base_abs` (R34). -/
  pkBaseAbs : Nat
  /-- Ghost `alias_seen` (R34). -/
  aliasSeen : Bool
  /-- Ghost `overrun_seen` (R34). -/
  overrunSeen : Bool
  /-- The producer driver's remaining command words, the next one first (45_synchronizer.md R130). -/
  wProg : List Nat
  /-- The consumer driver's remaining command words (30_encoding.md R59). -/
  rProg : List Nat
  /-- The events still to come, the next one first (30_encoding.md R73). -/
  sched : List Event
  /-- The model's own: the next draw's number (00_scope.md R12). -/
  draws : Nat
  deriving DecidableEq, Repr

/-- An instance right after a reset of the whole block (70_reset_and_hazards.md R154, 10_state.md R35), both resets
released, with the storage contents and driver lists given. -/
def State.afterReset (p : Params) (storage : Storage) (wProg rProg : List Nat) (sched : List Event) (draws : Nat) :
    State where
  params := p
  storage := storage
  wBin := 0
  wGray := code p 0
  rs := SyncChain.atReset p
  rBin := 0
  rpBin := 0
  rpGray := code p 0
  ws := SyncChain.atReset p
  pk := PeekRegs.atReset
  rsp := Response.none
  wrstN := true
  rrstN := true
  resetAlone := none
  wAbs := 0
  rAbs := 0
  rpAbs := 0
  pkBaseAbs := 0
  aliasSeen := false
  overrunSeen := false
  wProg := wProg
  rProg := rProg
  sched := sched
  draws := draws

/-- The machine right after reset: the instance of log 1, nothing written since power-up, no command presented and
nothing scheduled (log 8). -/
def State.reset : State := State.afterReset Params.default [] [] [] [] 0

end Sys2Proof.Machine
end

