-- ==== Sys2Proof/Machine/Views.lean ====
section
/-! DEFINITION. What each domain computes from its registers before an edge: the views (45_synchronizer.md R127) and the
read domain's effective tail and count (44_read_port.md R112). -/

namespace Sys2Proof.Machine

/-- `Wv = G⁻¹(WS[S])`: the read domain's view of the write pointer (R127). -/
def State.wv (s : State) : Nat := s.ws.view s.params .consumer s.draws

/-- `RPv = G⁻¹(RS[S])`: the write domain's view of the published read pointer (R127). -/
def State.rpv (s : State) : Nat := s.rs.view s.params .producer s.draws

/-- Ghost `Wv_abs` (10_state.md R34). -/
def State.wvAbs (s : State) : Nat := s.ws.viewAbs

/-- Ghost `RPv_abs` (10_state.md R34). -/
def State.rpvAbs (s : State) : Nat := s.rs.viewAbs

/-- `Ts = PG.eff_tail(R_bin, Wv)` (R112). -/
def State.effTail (s : State) : Nat := pgEffTail s.params s.rBin s.wv

/-- `cnt = PG.count(R_bin, Wv)` (R112). -/
def State.cnt (s : State) : Nat := pgCount s.params s.rBin s.wv

/-- Ghost `Ts_abs = max(R_abs, Wv_abs - (cap - 1))` (R112); below zero the difference never is the larger. -/
def State.effTailAbs (s : State) : Nat := max s.rAbs (s.wvAbs - (s.params.cap - 1))

/-- `head = W_bin mod cap` (10_state.md R28, 42_pointer_generator.md R97). -/
def State.head (s : State) : Nat := pgIdx s.params s.wBin

end Sys2Proof.Machine
end

