-- ==== Sys2Proof/Machine/Flags.lean ====
section
/-! DEFINITION. Flags (10_state.md R27) and the outputs of the two ports (30_encoding.md R56, R57). No flag is stored
but in a response register. -/

namespace Sys2Proof.Machine

/-- `truncated`: PEEK asked for more than the count (R27, R118, 60_exceptions.md R136). -/
def truncated (cnt maxLength : Nat) : Bool := decide (cnt < maxLength)

/-- `out_of_range`: the checked index is not below the count (R27, R123). -/
def outOfRange (cnt index : Nat) : Bool := decide (cnt ≤ index)

/-- `w_ready = wrst_n` (43_write_port.md R108). -/
def State.wReady (s : State) : Bool := s.wrstN

/-- `w_count` (R109), 0 during reset (70_reset_and_hazards.md R158). -/
def State.wCount (s : State) : Nat := if s.wrstN then pgWcount s.params s.wBin s.rpv else 0

/-- `w_at_capacity = (w_count == cap - 1)` (R109), 0 during reset (R158). -/
def State.wAtCapacity (s : State) : Bool := s.wrstN && decide (s.wCount = s.params.cap - 1)

/-- `r_ready = rrst_n AND (pk_active = 0)` (44_read_port.md R115). -/
def State.rReady (s : State) : Bool := s.rrstN && !s.pk.active

/-- `r_count = cnt` (R116), 0 during reset (R158). -/
def State.rCount (s : State) : Nat := if s.rrstN then s.cnt else 0

/-- `r_empty = (cnt == 0)` (R116), 1 during reset (R158). -/
def State.rEmpty (s : State) : Bool := decide (s.rCount = 0)

/-- The `rsp_*` outputs, driven from the registers (30_encoding.md R57), all 0 during reset (R158). -/
def State.rspOut (s : State) : Response := if s.rrstN then s.rsp else Response.none

end Sys2Proof.Machine
end

