-- ==== Sys2Proof/Machine/Operands.lean ====
section
/-! DEFINITION. The two operand forms (30_encoding.md R62, R63). A port has exactly as many wires as its field has bits,
so an operand is what those wires carry; a well-formed command's operand is carried whole. -/

namespace Sys2Proof.Machine

/-- Format W: `w_data`, a DATA_W-bit vector, neither extended nor scaled (R62). -/
def elemOperand (p : Params) (v : Nat) : Nat := lowBits p.dataW v

/-- Format R: `a = zext(r_arg)`, unsigned, in `[0, 2^ARG_W - 1]` (R63). -/
def argOperand (p : Params) (a : Nat) : Nat := lowBits p.argW a

end Sys2Proof.Machine
end

