-- ==== Sys2Proof/Machine/Ops.lean ====
section
/-! DEFINITION. The shared operations: one edge of each domain's clock, with what every edge does written once and the
command's own part as an argument. All reads are of the registers before the edge (00_scope.md R10).

There is no operation that takes an exception and none that returns from one: the block saves no state, changes no
mode and transfers control nowhere on any condition (60_exceptions.md R134, R142, R143). -/

namespace Sys2Proof.Machine

/-! ### The write domain -/

/-- A rising edge of `wclk` out of reset (43_write_port.md R105): the chain `RS` shifts, and the write-pointer
gray_counter runs with its enable set where a WRITE is accepted (R107, 41_gray_counter.md R91). `cmd` is the element of an
accepted WRITE. -/
def writeStep (cmd : Option Nat) (s : State) : State :=
  let w := GrayCounter.edge s.params cmd.isSome ⟨s.wBin, s.wGray⟩
  { s with
    storage := match cmd with
      | some v => s.storage.write s.params.dataW (pgIdx s.params s.wBin) v
      | none => s.storage
    wBin := w.bin
    wGray := w.gray
    rs := s.rs.capture s.params s.draws s.rpGray s.rpAbs
    ws := if cmd.isSome then s.ws.sourceMoved s.params s.wGray else s.ws
    wAbs := if cmd.isSome then s.wAbs + 1 else s.wAbs
    draws := s.draws + 1 }

/-- A rising edge of `wclk` with a command presented: nothing is accepted and no register moves while `wrst_n = 0`
(30_encoding.md R58, 70_reset_and_hazards.md R156, R158). DESIGN CHOICE (log 5): such an edge leaves `held` too, so it does
not close the capture window of `RS`, and the first capture after the release may take a code from before it. -/
def writeEdge (cmd : Option Nat) (s : State) : State := if s.wrstN then writeStep cmd s else s

/-! ### The read domain -/

/-- `ReadElem(p)` (44_read_port.md R114): a draw where the slot is the write domain's next store target, else the slot's
element. -/
def readElem (s : State) (a : Nat) : Nat :=
  if pgIdx s.params a = pgIdx s.params s.wBin then lowBits s.params.dataW (Config.freeElem s.draws)
  else s.storage.read s.params.dataW (pgIdx s.params a)

/-- `draw(DATA_W)` of an out-of-contract GET_NTH (R122, 60_exceptions.md R137). -/
def outOfContract (s : State) : Nat := lowBits s.params.dataW (Config.freeElem s.draws)

/-- The overrun condition of an element at absolute position `pos` (70_reset_and_hazards.md R162). -/
def overrunAt (s : State) (pos : Nat) : Bool := decide (pos + s.params.cap ≤ s.wAbs)

/-- The overrun condition of the element at position `Wv_abs - 1 - i` (R162), with the difference moved to the other
side so that no integer goes below zero (log 18). -/
def overrunNth (s : State) (i : Nat) : Bool := decide (s.wvAbs + s.params.cap ≤ s.wAbs + 1 + i)

/-- What a command or a PEEK beat does at a read-domain edge: the new `R_bin`, the response registers, the PEEK
registers, and the ghosts it decides. -/
structure ReadEffect where
  rn : Nat
  rsp : Response
  pk : PeekRegs
  pkBaseAbs : Nat
  overrun : Bool
  deriving DecidableEq, Repr

/-- The default of R113: `Rn <- Ts`, no response, PEEK registers held, no element read. -/
def idleEffect (s : State) : ReadEffect := ⟨s.effTail, Response.none, s.pk, s.pkBaseAbs, false⟩

/-- A PEEK beat (44_read_port.md R119). -/
def beatEffect (s : State) : ReadEffect :=
  let last := decide (s.pk.j + 1 = s.pk.n)
  { idleEffect s with
    rsp := ⟨true, true, readElem s (pgAdd s.params s.pk.base s.pk.j), s.pk.n, s.pk.trunc, last⟩
    pk := if last then { s.pk with active := false } else { s.pk with j := s.pk.j + 1 }
    overrun := overrunAt s (s.pkBaseAbs + s.pk.j) }

/-- What every rising edge of `rclk` out of reset does with an effect (R113): the chain `WS` shifts, `R_bin` takes `Rn`,
the published pointer's gray_counter steps towards the old `R_bin` (42_pointer_generator.md R102), and the ghosts move
(10_state.md R34; the alias test of 70_reset_and_hazards.md R161 is on the registers before the edge). -/
def readCommit (e : ReadEffect) (s : State) : State :=
  let moves := decide (s.rpBin ≠ s.rBin)
  let rp := GrayCounter.edge s.params moves ⟨s.rpBin, s.rpGray⟩
  { s with
    ws := s.ws.capture s.params s.draws s.wGray s.wAbs
    rs := if moves then s.rs.sourceMoved s.params s.rpGray else s.rs
    rBin := e.rn
    rpBin := rp.bin
    rpGray := rp.gray
    pk := e.pk
    rsp := e.rsp
    rAbs := s.rAbs + pgDist s.params e.rn s.rBin
    rpAbs := if moves then s.rpAbs + 1 else s.rpAbs
    pkBaseAbs := e.pkBaseAbs
    aliasSeen := s.aliasSeen || decide (s.rAbs + s.params.ptrMod ≤ s.wvAbs)
    overrunSeen := s.overrunSeen || e.overrun
    draws := s.draws + 1 }

/-- A rising edge of `rclk` out of reset (R113): a streaming PEEK takes the edge for its beat and no command is
accepted, else the presented command's effect happens (60_exceptions.md R141). -/
def readStep (cmd : ReadEffect) (s : State) : State :=
  readCommit (if s.pk.active then beatEffect s else cmd) s

/-- A rising edge of `rclk` with a command presented whose effect would be `cmd`: nothing is accepted and no register
moves while `rrst_n = 0` (30_encoding.md R59, 70_reset_and_hazards.md R156, R158). DESIGN CHOICE (log 5): such an edge
does not close the capture window of `WS` either. -/
def readEdge (cmd : ReadEffect) (s : State) : State := if s.rrstN then readStep cmd s else s

end Sys2Proof.Machine
end

