-- ==== Sys2Proof/Machine/ReadPort.lean ====
section
/-! DEFINITION. The consumer port's commands (44_read_port.md). Each meaning is one rising edge of `rclk` at which the
command is presented; the effect of each is what it does where the port accepts it. -/

namespace Sys2Proof.Machine

/-- R_NOP (R117): only the per-edge updates of R113. -/
def execRNop (s : State) : Host.Outcome State Fault Refusal := .next (readEdge (idleEffect s) s)

/-- PEEK of up to `a` elements (R118): one beat now; with two or more elements the rest stream on the following edges. -/
def peekEffect (a : Nat) (s : State) : ReadEffect :=
  let n := min s.cnt a
  let trunc := truncated s.cnt a
  if n = 0 then { idleEffect s with rsp := ⟨true, false, 0, 0, trunc, true⟩ }
  else
    { idleEffect s with
      rsp := ⟨true, true, readElem s s.effTail, n, trunc, decide (n = 1)⟩
      pk := if 2 ≤ n then ⟨true, s.effTail, n, 1, trunc⟩ else s.pk
      pkBaseAbs := if 2 ≤ n then s.effTailAbs else s.pkBaseAbs
      overrun := overrunAt s s.effTailAbs }

/-- PEEK (R118). -/
def execPeek (a : Nat) (s : State) : Host.Outcome State Fault Refusal :=
  .next (readEdge (peekEffect (argOperand s.params a) s) s)

/-- DELETE_OLDEST of up to `a` elements (R120): the read pointer moves, clamped to the count, and there is no response. -/
def deleteEffect (a : Nat) (s : State) : ReadEffect :=
  { idleEffect s with rn := pgAdd s.params s.effTail (min a s.cnt) }

/-- DELETE_OLDEST (R120). -/
def execDeleteOldest (a : Nat) (s : State) : Host.Outcome State Fault Refusal :=
  .next (readEdge (deleteEffect (argOperand s.params a) s) s)

/-- LENGTH (R121): the count as the read domain sees it. -/
def lengthEffect (s : State) : ReadEffect :=
  { idleEffect s with rsp := ⟨true, false, 0, s.cnt, false, true⟩ }

/-- LENGTH (R121). -/
def execLength (s : State) : Host.Outcome State Fault Refusal := .next (readEdge (lengthEffect s) s)

/-- GET_NTH of index `i` (R122): an element in contract, a draw out of it (60_exceptions.md R137), never a flag. -/
def getNthEffect (i : Nat) (s : State) : ReadEffect :=
  if i < s.cnt then
    { idleEffect s with
      rsp := ⟨true, true, readElem s (pgSub s.params s.wv (i + 1)), 0, false, true⟩
      overrun := overrunNth s i }
  else { idleEffect s with rsp := ⟨true, true, outOfContract s, 0, false, true⟩ }

/-- GET_NTH (R122). -/
def execGetNth (i : Nat) (s : State) : Host.Outcome State Fault Refusal :=
  .next (readEdge (getNthEffect (argOperand s.params i) s) s)

/-- GET_NTH_CHECKED of index `i` (R123): an element in range, the out-of-range flag out of it. -/
def getNthCheckedEffect (i : Nat) (s : State) : ReadEffect :=
  if outOfRange s.cnt i then { idleEffect s with rsp := ⟨true, false, 0, 0, true, true⟩ }
  else
    { idleEffect s with
      rsp := ⟨true, true, readElem s (pgSub s.params s.wv (i + 1)), 0, false, true⟩
      overrun := overrunNth s i }

/-- GET_NTH_CHECKED (R123). -/
def execGetNthChecked (i : Nat) (s : State) : Host.Outcome State Fault Refusal :=
  .next (readEdge (getNthCheckedEffect (argOperand s.params i) s) s)

end Sys2Proof.Machine
end

