-- ==== Sys2Proof/Machine/WritePort.lean ====
section
/-! DEFINITION. The producer port's commands (43_write_port.md). Each meaning is one rising edge of `wclk` at which the
command is presented. -/

namespace Sys2Proof.Machine

/-- W_NOP (R106): only the per-edge updates of R105. -/
def execWNop (s : State) : Host.Outcome State Fault Refusal := .next (writeEdge none s)

/-- WRITE (R107): the element goes to slot `PG.idx(W_bin)` and the write pointer advances, at one edge (20_memory.md
R41). It never fails and never stalls (R108). -/
def execWrite (v : Nat) (s : State) : Host.Outcome State Fault Refusal :=
  .next (writeEdge (some (elemOperand s.params v)) s)

end Sys2Proof.Machine
end

