-- ==== Sys2Proof/Machine/Dispatch.lean ====
section
/-! DEFINITION. One arm for each command: the meaning of the command presented at one edge of its port's clock. -/

namespace Sys2Proof.Machine

def exec (i : Instr) (s : State) : Host.Outcome State Fault Refusal :=
  match i with
  | .wNop => Sys2Proof.Machine.execWNop s
  | .write v => Sys2Proof.Machine.execWrite v s
  | .rNop => Sys2Proof.Machine.execRNop s
  | .peek a => Sys2Proof.Machine.execPeek a s
  | .deleteOldest a => Sys2Proof.Machine.execDeleteOldest a s
  | .length => Sys2Proof.Machine.execLength s
  | .getNth a => Sys2Proof.Machine.execGetNth a s
  | .getNthChecked a => Sys2Proof.Machine.execGetNthChecked a s

end Sys2Proof.Machine
end

