-- ==== Sys2Proof/Machine/Ports.lean ====
section
/-! DEFINITION. What a port accepts at an edge of its clock (30_encoding.md R58, R59) and which event comes next
(45_synchronizer.md R130). -/

namespace Sys2Proof.Machine

/-- What a port takes from its driver at one edge. -/
inductive Fetch where
  /-- No command of the list is accepted: the port sees a NOP, or is not ready (R59, R130). -/
  | idle
  /-- The decoded command, and the state with its word taken from the list. -/
  | command (i : Instr) (s : State)
  /-- The word is no command of the model (R66, R68). -/
  | refused (r : Refusal)
  deriving DecidableEq, Repr

/-- The refusal of a word that is no command. -/
def refusalOf : DecodeError → Refusal
  | .reservedOpcode port op => .reservedOpcode port op
  | .wordTooWide port word => .wordTooWide port word

/-- The command word `w` of `port`, decoded, with the state its acceptance leaves. -/
def accept (port : Port) (w : Nat) (p : Params) (s : State) : Fetch :=
  match decode p port w with
  | .ok i => .command i s
  | .error e => .refused (refusalOf e)

/-- The producer port at a `wclk` edge (R58): the head of the driver's list is accepted out of reset. -/
def fetchW (present : Bool) (s : State) : Fetch :=
  match present && s.wReady, s.wProg with
  | true, w :: rest => accept .producer w s.params { s with wProg := rest }
  | _, _ => .idle

/-- The consumer port at an `rclk` edge (R59): the head of the list is accepted only when `r_ready = 1`. -/
def fetchR (present : Bool) (s : State) : Fetch :=
  match present && s.rReady, s.rProg with
  | true, w :: rest => accept .consumer w s.params { s with rProg := rest }
  | _, _ => .idle

/-- How far a free synchronizer step goes: anywhere from the view to its source (45_synchronizer.md R129). -/
def freeTarget (n view src : Nat) : Nat := view + Config.freeAdvance n % (src - view + 1)

/-- The event of a free interleaving (20_memory.md R46, 45_synchronizer.md R130): any agent, a domain presenting its
next command or a NOP. With the chains modelled there is no synchronizer agent and the read domain moves instead. -/
def freeEvent (s : State) : Event :=
  match Config.freeAgent s.draws, s.params.sync with
  | .writeDomain, _ => .wclk (Config.freePresent s.draws)
  | .readDomain, _ => .rclk (Config.freePresent s.draws)
  | .syncW2R, .abstract => .syncW2R (some (freeTarget s.draws s.wvAbs s.wAbs))
  | .syncR2W, .abstract => .syncR2W (some (freeTarget s.draws s.rpvAbs s.rpAbs))
  | .syncW2R, .chains => .rclk (Config.freePresent s.draws)
  | .syncR2W, .chains => .rclk (Config.freePresent s.draws)

/-- The event that comes next: the head of the schedule, or a free one where nothing is scheduled. -/
def nextEvent (s : State) : Event :=
  match s.sched with
  | e :: _ => e
  | [] => freeEvent s

/-- The state the next event finds: the schedule moved on, or the free choice used up. -/
def afterEvent (s : State) : State :=
  match s.sched with
  | _ :: rest => { s with sched := rest }
  | [] => { s with draws := s.draws + 1 }

/-- The state with a port ready to accept a command (R58, R59), no reset of the block being half asserted. -/
def readyPort (port : Port) (s : State) : State :=
  match port with
  | .producer => { s with wrstN := true, resetAlone := none }
  | .consumer => { s with rrstN := true, resetAlone := none, pk := { s.pk with active := false } }

/-- A word placed where its port's next edge accepts it. -/
def placeWord (port : Port) (w : Nat) (s : State) : State :=
  let s := readyPort port s
  match port with
  | .producer => { s with wProg := w :: s.wProg, sched := .wclk true :: s.sched }
  | .consumer => { s with rProg := w :: s.rProg, sched := .rclk true :: s.sched }

end Sys2Proof.Machine
end

