-- ==== Sys2Proof/Machine/Reset.lean ====
section
/-! DEFINITION. Reset (70_reset_and_hazards.md R154 to R159) and elaboration (00_scope.md R7). -/

namespace Sys2Proof.Machine

/-- Every register and ghost at its reset value (R154), the pins at the levels given; the storage, the drivers' lists
and the schedule are untouched. DESIGN CHOICE (log 26): the codes held for a capture (45_synchronizer.md R125) are forgotten
too, so the next capture of either chain takes no code from before the reset. -/
def resetRegs (wrstN rrstN : Bool) (s : State) : State :=
  { State.afterReset s.params s.storage s.wProg s.rProg s.sched s.draws with wrstN := wrstN, rrstN := rrstN }

/-- The one step `Reset` of the whole block (R154): both resets asserted together and released. -/
def resetBlock (s : State) : State := resetRegs true true s

/-- The write domain's registers (10_state.md R28) all hold their reset values. -/
def State.writeAtReset (s : State) : Bool :=
  decide (s.wBin = 0) && decide (s.wGray = code s.params 0) &&
    decide (s.rs.stages = (SyncChain.atReset s.params).stages)

/-- The read domain's registers (10_state.md R29) all hold their reset values. -/
def State.readAtReset (s : State) : Bool :=
  decide (s.rBin = 0) && decide (s.rpBin = 0) && decide (s.rpGray = code s.params 0) &&
    decide (s.ws.stages = (SyncChain.atReset s.params).stages) && decide (s.pk = PeekRegs.atReset) &&
    decide (s.rsp = Response.none)

/-- `wrst_n` asserted alone (R154): the write domain's registers take their reset values at once. The ghosts wait for the
reset of the whole block. -/
def assertWriteAlone (s : State) : State :=
  { s with
    wBin := 0
    wGray := code s.params 0
    rs := SyncChain.atReset s.params
    wrstN := false
    rrstN := true
    resetAlone := some .producer }

/-- `rrst_n` asserted alone (R154). -/
def assertReadAlone (s : State) : State :=
  { s with
    rBin := 0
    rpBin := 0
    rpGray := code s.params 0
    ws := SyncChain.atReset s.params
    pk := PeekRegs.atReset
    rsp := Response.none
    wrstN := true
    rrstN := false
    resetAlone := some .consumer }

/-- The reset pins of a block no reset of which is half asserted. A reset asserted alone while the other domain runs and
has left its reset state is the first half of a reset of the whole block (R156). Any other assertion leaves every register
at its reset value, which is a reset of the whole block (log 12). DESIGN CHOICE (log 26): so too where the one domain's reset
is asserted alone, the other runs with its registers at their reset values, and the Gray register it samples had moved: its
next capture takes `G(0)`, never the code that register held before. Releasing a reset changes no register. -/
def setPinsWhole (w r : Bool) (s : State) : Host.Outcome State Fault Refusal :=
  let assertsW := s.wrstN && !w
  let assertsR := s.rrstN && !r
  if assertsW && r && !s.readAtReset then .next (assertWriteAlone s)
  else if assertsR && w && !s.writeAtReset then .next (assertReadAlone s)
  else if assertsW || assertsR then .next (resetRegs w r s)
  else .next { s with wrstN := w, rrstN := r }

/-- The reset pins while one domain's reset is asserted alone: with the other asserted too the block is reset (R156, in
either order, with an interval in which both are asserted), and a release before that is a partial reset (R157). -/
def setPinsHalf (w r : Bool) (s : State) : Host.Outcome State Fault Refusal :=
  if w = false ∧ r = false then .next (resetRegs false false s)
  else if w = s.wrstN ∧ r = s.rrstN then .next s
  else .refused .partialReset

/-- The reset pins take the levels `w` and `r` (R156, R157). -/
def setPins (w r : Bool) (s : State) : Host.Outcome State Fault Refusal :=
  match s.resetAlone with
  | none => setPinsWhole w r s
  | some _ => setPinsHalf w r s

/-- The domain of `port` runs while the other's reset is asserted alone: the pointer it would be sent has gone back to 0
at once, and no rule says what its synchronizer then sees (45_synchronizer.md R125, R129). -/
def State.runsBesideReset (s : State) : Port → Bool
  | .producer => s.wrstN && decide (s.resetAlone = some .consumer)
  | .consumer => s.rrstN && decide (s.resetAlone = some .producer)

/-- What a step of the domain of `port`, or of its view, does, but where the other domain's reset is asserted alone: there
it makes the reset a partial one, which a model refuses (R157, log 12). -/
def unlessPartial (port : Port) (s : State) (o : Host.Outcome State Fault Refusal) : Host.Outcome State Fault Refusal :=
  if s.runsBesideReset port then .refused .partialReset else o

/-- Elaboration and the first reset (R155, R160): an illegal parameter set has no instance (R7, 60_exceptions.md R138). -/
def elaborate (r : RawParams) (storage : Storage) (wProg rProg : List Nat) (sched : List Event) :
    Host.Outcome State Fault Refusal :=
  if h : r.Legal then .next (State.afterReset ⟨r, h⟩ storage wProg rProg sched 0) else .refused .invalidConstruction

end Sys2Proof.Machine
end

