-- ==== Sys2Proof/Machine/Sync.lean ====
section
/-! DEFINITION. The abstract synchronizers' steps (45_synchronizer.md R129). -/

namespace Sys2Proof.Machine

/-- SyncW2R: the read domain's view of the write pointer moves to `target`, or all the way (30_encoding.md R73). While
`rrst_n = 0` the view is held at `G(0)` (70_reset_and_hazards.md R156). -/
def syncW2R (target : Option Nat) (s : State) : Host.Outcome State Fault Refusal :=
  match s.params.sync with
  | .chains => .refused .noSyncStep
  | .abstract =>
    let k := target.getD s.wAbs
    if s.rrstN = false then .next s
    else if s.wvAbs ≤ k ∧ k ≤ s.wAbs then .next { s with ws := s.ws.jump s.params k }
    else .refused (.syncOutOfRange k)

/-- SyncR2W: the write domain's view of the published read pointer moves to `target`, or all the way. While `wrst_n = 0`
it is held at `G(0)`. -/
def syncR2W (target : Option Nat) (s : State) : Host.Outcome State Fault Refusal :=
  match s.params.sync with
  | .chains => .refused .noSyncStep
  | .abstract =>
    let k := target.getD s.rpAbs
    if s.wrstN = false then .next s
    else if s.rpvAbs ≤ k ∧ k ≤ s.rpAbs then .next { s with rs := s.rs.jump s.params k }
    else .refused (.syncOutOfRange k)

end Sys2Proof.Machine
end

