-- ==== Sys2Proof/Machine/Step.lean ====
section
/-! DEFINITION. One step of the machine: the next agent of the interleaving takes its step (45_synchronizer.md R130). -/

namespace Sys2Proof.Machine

/-- What a port does at an edge where it fetched `f`: run the command, or refuse the word (30_encoding.md R66). -/
def runFetched (nop : Instr) (s : State) : Fetch → Host.Outcome State Fault Refusal
  | .idle => exec nop s
  | .command i s' => exec i s'
  | .refused r => .refused r

/-- The step an event asks for. -/
def eventStep (e : Event) (s : State) : Host.Outcome State Fault Refusal :=
  match e with
  | .wclk present => unlessPartial .producer s (runFetched .wNop s (fetchW present s))
  | .rclk present => unlessPartial .consumer s (runFetched .rNop s (fetchR present s))
  | .syncW2R target => unlessPartial .consumer s (syncW2R target s)
  | .syncR2W target => unlessPartial .producer s (syncR2W target s)
  | .reset => .next (resetBlock s)
  | .pins w r => setPins w r s

/-- One step: the next scheduled event, or a free one (20_memory.md R46). -/
def step (s : State) : Host.Outcome State Fault Refusal := eventStep (nextEvent s) (afterEvent s)

/-- `s` with a word of spec/opcode_table.json at the head of its port's command list and that port's next edge at the
head of the schedule, the port ready to accept it (log 8). -/
def State.withFetchWord (s : State) (nbits w : Nat) : State := placeWord (tablePort nbits) w s

end Sys2Proof.Machine
end

