-- ==== Sys2Proof/Machine/Reference.lean ====
section
/-! DEFINITION. Level A, the reference semantics (40_reference_operations.md): the ring-buffer data type, one atomic
transition for each operation (R74). It is normative; level C must refine it. The laws of R84 are laws of the operations
here, said over `RefState.contents`. -/

namespace Sys2Proof.Machine

/-- The level-A state (10_state.md R16 to R20): storage, head and tail over a fixed capacity and element width. -/
structure RefState where
  cap : Nat
  dataW : Nat
  storage : Storage
  head : Nat
  tail : Nat
  deriving DecidableEq, Repr

/-- The phases of 10_state.md R23. -/
inductive Phase where
  | empty
  | partiallyFilled
  | atCapacity
  deriving DecidableEq, Repr

/-- What the checked getNth returns (R82). -/
inductive Checked where
  | ok (v : Nat)
  | outOfRange
  deriving DecidableEq, Repr

namespace RefState

/-- `occ = (head - tail) mod cap`, never stored (10_state.md R20, R21). -/
def occ (s : RefState) : Nat := (s.head + (s.cap - s.tail % s.cap)) % s.cap

/-- The invariants of 10_state.md R20 on the two indices. -/
abbrev Inv (s : RefState) : Prop := 2 ≤ s.cap ∧ s.head < s.cap ∧ s.tail < s.cap

/-- The phase a state is in (10_state.md R23). -/
def phase (s : RefState) : Phase :=
  if s.occ = 0 then .empty else if s.occ = s.cap - 1 then .atCapacity else .partiallyFilled

/-- The `n` elements from the tail on, oldest first (10_state.md R22). -/
def oldest (n : Nat) (s : RefState) : List Nat :=
  (List.range n).map fun j => s.storage.read s.dataW ((s.tail + j) % s.cap)

/-- The stored elements, oldest first (10_state.md R22). The six laws of R84 say what `write1`, `write`, `deleteOldest`,
`peek`, `length`, `getNth` and `getNthChecked` do to them and return of them. -/
def contents (s : RefState) : List Nat := s.oldest s.occ

/-- `init(storage, capacity)` (R75). -/
def init (dataW : Nat) (storage : Storage) (capacity : Nat) : Host.Outcome RefState Fault Refusal :=
  if capacity < 2 then .refused .invalidConstruction else .next ⟨capacity, dataW, storage, 0, 0⟩

/-- `write1(v)` (R76): the store, the head, and the eviction where the head meets the tail, as one atomic step. -/
def write1 (v : Nat) (s : RefState) : RefState :=
  let head := (s.head + 1) % s.cap
  { s with
    storage := s.storage.write s.dataW s.head v
    head := head
    tail := if head = s.tail then (s.tail + 1) % s.cap else s.tail }

/-- `write(elements)` (R77). -/
def write : List Nat → RefState → RefState
  | [], s => s
  | v :: rest, s => write rest (write1 v s)

/-- `peek(maxLength)`: the elements and the truncated flag (R78); the state does not change. -/
def peek (maxLength : Nat) (s : RefState) : List Nat × Bool :=
  (s.oldest (min s.occ maxLength), decide (s.occ < maxLength))

/-- `deleteOldest(count)` (R79), with the assignment `head <- tail` as the rule writes it. -/
def deleteOldest (count : Nat) (s : RefState) : RefState :=
  let k := min count s.occ
  let tail := (s.tail + k) % s.cap
  { s with tail := tail, head := if k = s.occ then tail else s.head }

/-- `length()` (R80). -/
def length (s : RefState) : Nat := s.occ

/-- `getNth(indexFromNewest)` (R81), by the two branches of the rule in contract and draw `n` out of it. -/
def getNth (n i : Nat) (s : RefState) : Nat :=
  if i < s.occ then
    if i < s.head then s.storage.read s.dataW (s.head - i - 1) else s.storage.read s.dataW (s.cap - 1 + s.head - i)
  else lowBits s.dataW (Config.freeElem n)

/-- `getNthChecked(indexFromNewest)` (R82). -/
def getNthChecked (i : Nat) (s : RefState) : Checked :=
  if i < s.occ then .ok (s.storage.read s.dataW ((s.head + s.cap - 1 - i) % s.cap)) else .outOfRange

end RefState

/-- The scan of writeText (R83): the number of elements before the sentinel, `maxScan` where none lies among the first
`maxScan`, and nothing where the text ends before either. -/
def scanText (sentinel : Nat) : Nat → List Nat → Option Nat
  | 0, _ => some 0
  | _ + 1, [] => none
  | k + 1, t :: rest => if t = sentinel then some 0 else (scanText sentinel k rest).map (· + 1)

/-- `writeText(text, maxScan)` (R83), for DATA_W = 8 only. -/
def RefState.writeText (sentinel : Nat) (text : List Nat) (maxScan : Nat) (s : RefState) :
    Host.Outcome RefState Fault Refusal :=
  if s.dataW = 8 then
    match scanText sentinel maxScan text with
    | some l => .next (s.write (text.take l))
    | none => .refused .textUnterminated
  else .refused .textNotByte

end Sys2Proof.Machine
end

