-- ==== Sys2Proof/Machine/Pseudo.lean ====
section
/-! DEFINITION. The pseudo-operations (30_encoding.md R70 to R72, 43_write_port.md R110, R111): the driver expands each
into commands, since the block cannot address the driver's memory. -/

namespace Sys2Proof.Machine

/-- `W.WRITESEQ` (R70, R110): one WRITE for each element, in order. -/
def expandWriteSeq (elements : List Nat) : List Instr := elements.map .write

/-- `W.TEXT` (R71, R111): one WRITE for each element before the sentinel. `maxScan` defaults to TEXT_MAX_SCAN. -/
def expandText (p : Params) (text : List Nat) (maxScan : Option Nat) : Except Refusal (List Instr) :=
  if p.dataW = 8 then
    match scanText p.textSentinel (maxScan.getD p.textMaxScan) text with
    | some l => .ok (expandWriteSeq (text.take l))
    | none => .error .textUnterminated
  else .error .textNotByte

/-- `R.DELETEALL` (R72): a DELETE_OLDEST of the largest count. -/
def expandDeleteAll (p : Params) : List Instr := [.deleteOldest (2 ^ p.argW - 1)]

end Sys2Proof.Machine
end

