-- ==== Sys2Proof/Machine/Assembler.lean ====
section
/-! DEFINITION. The assembler notation (30_encoding.md R69 to R72): the forms with their operands, the rejection of an
operand that does not fit, the expansion into command words, and the reading of a line of text. -/

namespace Sys2Proof.Machine

/-- A line of a program (R69 to R72). -/
inductive AsmLine where
  | wNop
  | wWrite (v : Nat)
  | rNop
  | rPeek (a : Nat)
  | rDelete (a : Nat)
  | rLength
  | rNth (a : Nat)
  | rNthc (a : Nat)
  | wWriteSeq (vs : List Nat)
  | wText (text : List Nat) (maxScan : Option Nat)
  | rDeleteAll
  deriving DecidableEq, Repr

/-- Why a line is rejected. -/
inductive AsmError where
  /-- The operand does not fit its field (R69). -/
  | operandTooLarge (i : Instr)
  /-- The pseudo-operation has no expansion (R71, R83). -/
  | noExpansion (r : Refusal)
  /-- The text is none of the forms of R69. -/
  | notALine
  deriving DecidableEq, Repr

/-- The commands of a line before the check of their operands. -/
def AsmLine.commands (p : Params) : AsmLine → Except Refusal (List Instr)
  | .wNop => .ok [.wNop]
  | .wWrite v => .ok [.write v]
  | .rNop => .ok [.rNop]
  | .rPeek a => .ok [.peek a]
  | .rDelete a => .ok [.deleteOldest a]
  | .rLength => .ok [.length]
  | .rNth a => .ok [.getNth a]
  | .rNthc a => .ok [.getNthChecked a]
  | .wWriteSeq vs => .ok (expandWriteSeq vs)
  | .wText text maxScan => expandText p text maxScan
  | .rDeleteAll => .ok (expandDeleteAll p)

/-- The words of commands whose operands all fit. -/
def encodeAll (p : Params) : List Instr → Except AsmError (List Nat)
  | [] => .ok []
  | i :: rest =>
    if i.wellFormed p then
      match encodeAll p rest with
      | .ok ws => .ok (encode p i :: ws)
      | .error e => .error e
    else .error (.operandTooLarge i)

/-- The command words of a line, or its rejection (R69). -/
def assemble (p : Params) (l : AsmLine) : Except AsmError (List Nat) :=
  match l.commands p with
  | .ok is => encodeAll p is
  | .error r => .error (.noExpansion r)

/-- The DATA_W-bit pattern of the negative value `-v` for a signed source instantiation (R69). -/
def negativePattern (p : Params) (v : Nat) : Nat := lowBits p.dataW (2 ^ p.dataW - lowBits p.dataW v)

/-! Reading text, a line as its characters. -/

/-- The value of a digit of the base. -/
def digitValue (base : Nat) (c : Char) : Option Nat :=
  let n := c.toNat
  let v := if 48 ≤ n ∧ n ≤ 57 then some (n - 48)
    else if 97 ≤ n ∧ n ≤ 102 then some (n - 87)
    else if 65 ≤ n ∧ n ≤ 70 then some (n - 55)
    else none
  v.filter (· < base)

/-- The number the digits write after `acc`. -/
def numberFrom (base : Nat) : Nat → List Char → Option Nat
  | acc, [] => some acc
  | acc, c :: rest =>
    match digitValue base c with
    | some d => numberFrom base (acc * base + d) rest
    | none => none

/-- An operand, decimal or `0x` hexadecimal (R69). -/
def readNumber : List Char → Option Nat
  | [] => none
  | ['0', 'x'] => none
  | '0' :: 'x' :: rest => numberFrom 16 0 rest
  | cs => numberFrom 10 0 cs

/-- The line without its comment (R69: `;` starts one), a `;` between quotes being none. -/
def dropComment : Bool → List Char → List Char
  | _, [] => []
  | quoted, c :: rest =>
    if c = ';' ∧ quoted = false then []
    else c :: dropComment (if c = '"' then !quoted else quoted) rest

/-- White space of a line. -/
def isBlank (c : Char) : Bool := c = ' ' || c = '\t'

/-- The characters without white space at either end. -/
def trim (cs : List Char) : List Char := ((cs.dropWhile isBlank).reverse.dropWhile isBlank).reverse

/-- The pieces between commas, trimmed. -/
def splitCommas : List Char → List (List Char)
  | [] => [[]]
  | c :: rest =>
    match splitCommas rest with
    | [] => []
    | piece :: pieces => if c = ',' then [] :: piece :: pieces else (c :: piece) :: pieces

/-- Operands separated by commas; none for an empty operand field (R70: n = 0). -/
def readNumbers (cs : List Char) : Option (List Nat) :=
  match trim cs with
  | [] => some []
  | cs => (splitCommas cs).mapM fun piece => readNumber (trim piece)

/-- The bytes of a quoted text up to the closing quote, and what follows it; `\0` is the byte 0 (R71). -/
def readText : List Char → Option (List Nat × List Char)
  | [] => none
  | '"' :: rest => some ([], rest)
  | '\\' :: '0' :: rest => (readText rest).map fun r => (0 :: r.1, r.2)
  | c :: rest => (readText rest).map fun r => (c.toNat :: r.1, r.2)

/-- The operands of `W.TEXT`: the text, and maxScan after a comma (R71). -/
def readTextOperands (cs : List Char) : Option AsmLine :=
  match trim cs with
  | '"' :: rest =>
    match readText rest with
    | some (text, tail) =>
      match trim tail with
      | [] => some (.wText text none)
      | ',' :: k => (readNumber (trim k)).map fun n => .wText text (some n)
      | _ => none
    | none => none
  | _ => none

/-- A form with no operand. -/
def noOperand (l : AsmLine) (cs : List Char) : Option AsmLine := if (trim cs).isEmpty then some l else none

/-- A form with one operand. -/
def oneOperand (l : Nat → AsmLine) (cs : List Char) : Option AsmLine := (readNumber (trim cs)).map l

/-- The form a mnemonic names, read with its operands (R69 to R72). -/
def readForm (mnemonic operands : List Char) : Option AsmLine :=
  if mnemonic = ['W', '.', 'N', 'O', 'P'] then noOperand .wNop operands
  else if mnemonic = ['W', '.', 'W', 'R', 'I', 'T', 'E'] then oneOperand .wWrite operands
  else if mnemonic = ['R', '.', 'N', 'O', 'P'] then noOperand .rNop operands
  else if mnemonic = ['R', '.', 'P', 'E', 'E', 'K'] then oneOperand .rPeek operands
  else if mnemonic = ['R', '.', 'D', 'E', 'L', 'E', 'T', 'E'] then oneOperand .rDelete operands
  else if mnemonic = ['R', '.', 'L', 'E', 'N', 'G', 'T', 'H'] then noOperand .rLength operands
  else if mnemonic = ['R', '.', 'N', 'T', 'H'] then oneOperand .rNth operands
  else if mnemonic = ['R', '.', 'N', 'T', 'H', 'C'] then oneOperand .rNthc operands
  else if mnemonic = ['W', '.', 'W', 'R', 'I', 'T', 'E', 'S', 'E', 'Q'] then (readNumbers operands).map .wWriteSeq
  else if mnemonic = ['W', '.', 'T', 'E', 'X', 'T'] then readTextOperands operands
  else if mnemonic = ['R', '.', 'D', 'E', 'L', 'E', 'T', 'E', 'A', 'L', 'L'] then noOperand .rDeleteAll operands
  else none

/-- A line of text: nothing for a blank or comment line, else its form (R69: one command a line). -/
def readLine (cs : List Char) : Except AsmError (Option AsmLine) :=
  let body := trim (dropComment false cs)
  if body.isEmpty then .ok none
  else
    match readForm (body.takeWhile fun c => !isBlank c) (body.dropWhile fun c => !isBlank c) with
    | some l => .ok (some l)
    | none => .error .notALine

end Sys2Proof.Machine
end

