-- ==== Sys2Proof/Machine/Fairness.lean ====
section
/-! DEFINITION. Infinite runs of the agents and weak fairness (45_synchronizer.md R131). -/

namespace Sys2Proof.Machine

/-- An event that is one of the four agents' steps, not the environment's resets. -/
def Event.isAgentStep : Event → Bool
  | .wclk _ => true
  | .rclk _ => true
  | .syncW2R _ => true
  | .syncR2W _ => true
  | .reset => false
  | .pins _ _ => false

/-- A step of SyncW2R that changes the view can be taken (45_synchronizer.md R129). -/
abbrev State.canMoveW2R (s : State) : Prop := s.params.sync = .abstract ∧ s.rrstN = true ∧ s.wvAbs < s.wAbs

/-- A step of SyncR2W that changes the view can be taken. -/
abbrev State.canMoveR2W (s : State) : Prop := s.params.sync = .abstract ∧ s.wrstN = true ∧ s.rpvAbs < s.rpAbs

/-- A weakly fair run (R131): `run n` is the state before event `n` of an endless sequence of agents' steps, in which each
domain keeps taking steps, and a synchronizer step that would change its view is taken unless it stops being possible. -/
structure FairRun (run : Nat → State) (events : Nat → Event) : Prop where
  steps : ∀ n, eventStep (events n) (run n) = .next (run (n + 1))
  agents : ∀ n, (events n).isAgentStep = true
  writeDomain : ∀ n, ∃ m, n ≤ m ∧ ∃ present, events m = .wclk present
  readDomain : ∀ n, ∃ m, n ≤ m ∧ ∃ present, events m = .rclk present
  syncW2R : ∀ n, ∃ m, n ≤ m ∧ (¬ (run m).canMoveW2R ∨
    ((∃ target, events m = .syncW2R target) ∧ (run m).wvAbs < (run (m + 1)).wvAbs))
  syncR2W : ∀ n, ∃ m, n ≤ m ∧ (¬ (run m).canMoveR2W ∨
    ((∃ target, events m = .syncR2W target) ∧ (run m).rpvAbs < (run (m + 1)).rpvAbs))

end Sys2Proof.Machine
end

