-- ==== Sys2Proof/Machine/Refinement.lean ====
section
/-! DEFINITION. Level C against level A: the level-A state a level-C state stands for (10_state.md R32), and the level-A
run that 45_synchronizer.md R132 builds beside a level-C run. -/

namespace Sys2Proof.Machine

/-- `T_abs = max(R_abs, W_abs - (cap - 1))` (R32). -/
def State.tAbs (s : State) : Nat := max s.rAbs (s.wAbs - (s.params.cap - 1))

/-- `occ_A = W_abs - T_abs` (R32). -/
def State.occA (s : State) : Nat := s.wAbs - s.tAbs

/-- The level-A state a level-C state stands for (R32): it reads the true pointers, not any view. -/
def State.levelA (s : State) : RefState :=
  ⟨s.params.cap, s.params.dataW, s.storage, s.wAbs % s.params.cap, s.tAbs % s.params.cap⟩

/-- A response beat level A prescribes; `anyData` where its element is a draw (R132, item 3). -/
structure ExpectedBeat where
  rsp : Response
  anyData : Bool
  deriving DecidableEq, Repr

/-- The response registers show the beat. -/
def ExpectedBeat.shownBy (e : ExpectedBeat) (r : Response) : Bool :=
  if e.anyData then decide ({ r with data := 0 } = { e.rsp with data := 0 }) else decide (r = e.rsp)

/-- The data beats of a PEEK response (44_read_port.md R118, R119): one an element, the last marked. -/
def dataBeats (len : Nat) (trunc : Bool) : List Nat → List ExpectedBeat
  | [] => []
  | v :: rest => ⟨⟨true, true, v, len, trunc, rest.isEmpty⟩, false⟩ :: dataBeats len trunc rest

/-- The beats of a level-A peek's result (R132, item 1). -/
def peekBeats (result : List Nat × Bool) : List ExpectedBeat :=
  match result.1 with
  | [] => [⟨⟨true, false, 0, 0, result.2, true⟩, false⟩]
  | v :: rest => dataBeats (rest.length + 1) result.2 (v :: rest)

/-- The beat of a checked getNth's result (R132, item 4). -/
def checkedBeat : Checked → ExpectedBeat
  | .ok v => ⟨⟨true, true, v, 0, false, true⟩, false⟩
  | .outOfRange => ⟨⟨true, false, 0, 0, true, true⟩, false⟩

/-- No response beat. -/
def noBeat : ExpectedBeat := ⟨Response.none, false⟩

/-- The level-A operation of a read command (R132): the beats of its response and the state after it. A command of the
producer port is none and does nothing here. -/
def refCommand (c : Instr) (a : RefState) : List ExpectedBeat × RefState :=
  match c with
  | .wNop => ([noBeat], a)
  | .write _ => ([noBeat], a)
  | .rNop => ([noBeat], a)
  | .peek m => (peekBeats (a.peek m), a)
  | .deleteOldest k => ([noBeat], a.deleteOldest k)
  | .length => ([⟨⟨true, false, 0, a.length, false, true⟩, false⟩], a)
  | .getNth i => ([⟨⟨true, true, a.getNth 0 i, 0, false, true⟩, decide (a.occ ≤ i)⟩], a)
  | .getNthChecked i => ([checkedBeat (a.getNthChecked i)], a)

/-- The level-A run beside a level-C run (R132). -/
structure Shadow where
  /-- The level-A state after the read commands so far, with the writes placed before them. -/
  ref : RefState
  /-- How many writes are placed: `v_j` of the last read command. -/
  placed : Nat
  /-- The elements written at level C and not placed yet, in write order. -/
  pending : List Nat
  /-- The beats a streaming PEEK still owes. -/
  owed : List ExpectedBeat
  /-- Every response so far was the level-A one. -/
  agrees : Bool
  deriving DecidableEq, Repr

/-- The level-A run at reset (10_state.md R35, 40_reference_operations.md R75). -/
def Shadow.start (p : Params) (storage : Storage) : Shadow :=
  ⟨⟨p.cap, p.dataW, storage, 0, 0⟩, 0, [], [], true⟩

/-- A read command accepted where the view is `v`: the writes the view includes are placed, then the level-A operation
runs, and the response registers of the same edge are held against its first beat. -/
def Shadow.command (c : Instr) (v : Nat) (rsp : Response) (m : Shadow) : Shadow :=
  let r := refCommand c (m.ref.write (m.pending.take (v - m.placed)))
  { ref := r.2
    placed := v
    pending := m.pending.drop (v - m.placed)
    owed := r.1.tail
    agrees := m.agrees && (match r.1 with
      | e :: _ => e.shownBy rsp
      | [] => false) }

/-- An `rclk` edge that accepts no command: a streaming PEEK shows its next beat, else there is no response. -/
def Shadow.beat (active : Bool) (rsp : Response) (m : Shadow) : Shadow :=
  if active then
    match m.owed with
    | e :: rest => { m with owed := rest, agrees := m.agrees && e.shownBy rsp }
    | [] => { m with agrees := false }
  else { m with agrees := m.agrees && noBeat.shownBy rsp }

/-- The level-A run after the level-C step from `s` to `s'`. -/
def Shadow.observe (s s' : State) (m : Shadow) : Shadow :=
  match nextEvent s with
  | .wclk present =>
    match fetchW present (afterEvent s) with
    | .command (.write v) _ => { m with pending := m.pending ++ [elemOperand s.params v] }
    | _ => m
  | .rclk present =>
    if s.rrstN then
      match fetchR present (afterEvent s) with
      | .command .rNop _ => m.beat s.pk.active s'.rsp
      | .command c _ => m.command c s.wvAbs s'.rsp
      | _ => m.beat s.pk.active s'.rsp
    else m
  | _ => m

/-- `n` steps of a level-C run and of the level-A run beside it; nothing where the level-C run stops. -/
def shadowRun : Nat → State → Shadow → Option (State × Shadow)
  | 0, s, m => some (s, m)
  | n + 1, s, m =>
    match step s with
    | .next s' => shadowRun n s' (m.observe s s')
    | .fault _ => none
    | .refused _ => none

/-- The level-A run's state with the writes no command has seen applied at the end (R132). -/
def Shadow.finish (m : Shadow) : RefState := m.ref.write m.pending

/-- An operation of 42_pointer_generator.md R104. -/
inductive RefOp where
  | write (v : Nat)
  | deleteOldest (k : Nat)
  deriving DecidableEq, Repr

/-- The level-A operations of a sequence, in order. -/
def RefOp.run : List RefOp → RefState → RefState
  | [], a => a
  | .write v :: rest, a => RefOp.run rest (a.write1 v)
  | .deleteOldest k :: rest, a => RefOp.run rest (a.deleteOldest k)

/-- The absolute counts of R104: `H` writes so far, the level-A tail `T`, and `Rd`, the tail after the last delete. -/
structure Counts where
  written : Nat
  tail : Nat
  afterDelete : Nat
  deriving DecidableEq, Repr

/-- How the counts move, by the level-A rules R76 and R79 as R104 puts them. -/
def Counts.run (cap : Nat) : List RefOp → Counts → Counts
  | [], c => c
  | .write _ :: rest, c =>
    Counts.run cap rest
      { c with written := c.written + 1, tail := if c.written + 1 - c.tail = cap then c.tail + 1 else c.tail }
  | .deleteOldest k :: rest, c =>
    let tail := c.tail + min k (c.written - c.tail)
    Counts.run cap rest { c with tail := tail, afterDelete := tail }

end Sys2Proof.Machine
end

