-- ==== Sys2Proof/Machine/Schedule.lean ====
section
/-! DEFINITION. Test programs as schedules (30_encoding.md R73) and the end of a run (70_reset_and_hazards.md R168). -/

namespace Sys2Proof.Machine

/-- One line of a schedule (R73). -/
inductive Line where
  /-- `W: <write command>` -/
  | w (i : Instr)
  /-- `R: <read command>` -/
  | r (i : Instr)
  /-- `R: -`: a read-domain step with no command accepted. -/
  | rIdle
  /-- `SYNC W2R` or `SYNC W2R <k>` -/
  | syncW2R (k : Option Nat)
  /-- `SYNC R2W` -/
  | syncR2W
  deriving DecidableEq, Repr

/-- The event of a line. -/
def Line.event : Line → Event
  | .w _ => .wclk true
  | .r _ => .rclk true
  | .rIdle => .rclk false
  | .syncW2R k => .syncW2R k
  | .syncR2W => .syncR2W none

/-- The word a line puts on the producer port. -/
def Line.wWord (p : Params) : Line → Option Nat
  | .w i => some (encode p i)
  | .r _ => none
  | .rIdle => none
  | .syncW2R _ => none
  | .syncR2W => none

/-- The word a line puts on the consumer port. -/
def Line.rWord (p : Params) : Line → Option Nat
  | .w _ => none
  | .r i => some (encode p i)
  | .rIdle => none
  | .syncW2R _ => none
  | .syncR2W => none

/-- A state with a schedule's words on the ports' lists and its events next. -/
def State.load (lines : List Line) (s : State) : State :=
  { s with
    wProg := lines.filterMap (Line.wWord s.params)
    rProg := lines.filterMap (Line.rWord s.params)
    sched := lines.map Line.event }

/-- A list of events, one step each, stopping where one stops. -/
def runEvents : List Event → State → Host.Outcome State Fault Refusal
  | [], s => .next s
  | e :: rest, s =>
    match eventStep e s with
    | .next s' => runEvents rest s'
    | .fault f => .fault f
    | .refused r => .refused r

/-- A run ends when both drivers' lists are exhausted and no PEEK streams (R168). -/
def State.runEnded (s : State) : Bool := s.wProg.isEmpty && s.rProg.isEmpty && !s.pk.active

/-- The events that lead to the quiescent end state, with `n` read-domain NOP steps (R168). -/
def quiesce (n : Nat) : List Event := .syncW2R none :: (List.replicate n (.rclk false) ++ [.syncR2W none])

end Sys2Proof.Machine
end

