-- ==== Sys2Proof/Safety.lean ====
section
/-! DEFINITION. The terms claims are stated in: the machine's invariant (10_state.md R31, 00_scope.md R13), the ranges in
which the mod-M arithmetic stands for level A (42_pointer_generator.md R103), what an edge leaves unchanged, and the
paced producer of 70_reset_and_hazards.md R162. -/

namespace Sys2Proof.Machine

/-- A crossing in a run from reset: every stage holds the code of its ghost value (R31, 45_synchronizer.md R126), older
values in later stages, none ahead of the source `src`; and the codes held since the chain's last edge are those the
source stepped through. -/
structure ChainInv (p : Params) (src : Nat) (c : SyncChain) : Prop where
  length : c.abs.length = p.syncStages
  stages : c.stages = c.abs.map fun a => code p (a % p.ptrMod)
  sorted : c.abs.Pairwise (· ≥ ·)
  behind : ∀ a ∈ c.abs, a + c.held.length ≤ src
  heldLength : c.held.length ≤ src
  held : c.held = (List.range c.held.length).map fun j => code p ((src - 1 - j) % p.ptrMod)
  heldAbstract : p.sync = .abstract → c.held = []

/-- The register invariants of 10_state.md R31. -/
structure RegisterInv (s : State) : Prop where
  wBin : s.wBin < s.params.ptrMod
  rBin : s.rBin < s.params.ptrMod
  rpBin : s.rpBin < s.params.ptrMod
  wGray : s.wGray = code s.params s.wBin
  rpGray : s.rpGray = code s.params s.rpBin
  rs : ∀ g ∈ s.rs.stages, validCode s.params g = true
  ws : ∀ g ∈ s.ws.stages, validCode s.params g = true
  pkIndex : s.pk.active = true → s.pk.j < s.pk.n
  pkCount : s.pk.n ≤ s.params.cap - 1

/-- What holds of every state a run from reset reaches, but while a reset of the block is half asserted. -/
structure MachineInv (s : State) : Prop where
  whole : s.resetAlone = none
  storage : s.storage.wf s.params.dataW s.params.cap = true
  wBin : s.wBin = s.wAbs % s.params.ptrMod
  wGray : s.wGray = code s.params s.wBin
  rBin : s.rBin = s.rAbs % s.params.ptrMod
  rpBin : s.rpBin = s.rpAbs % s.params.ptrMod
  rpGray : s.rpGray = code s.params s.rpBin
  ws : ChainInv s.params s.wAbs s.ws
  rs : ChainInv s.params s.rpAbs s.rs
  published : s.rpAbs ≤ s.rAbs
  behindView : s.rAbs ≤ s.wvAbs
  pkBase : s.pk.base < s.params.ptrMod
  pkCount : s.pk.n ≤ s.params.cap - 1
  pkIndex : s.pk.active = true → 1 ≤ s.pk.j ∧ s.pk.j < s.pk.n
  pkBehind : s.pk.active = true → s.pkBaseAbs + s.pk.n ≤ s.wvAbs
  pkPosition : s.aliasSeen = false → s.pk.active = true →
    s.pk.base = s.pkBaseAbs % s.params.ptrMod ∧ s.pkBaseAbs ≤ s.rAbs
  rspData : s.rsp.data < 2 ^ s.params.dataW
  rspLen : s.rsp.len ≤ s.params.cap - 1
  inWriteReset : s.wrstN = false → s.writeAtReset = true ∧ s.wAbs = 0 ∧ s.rpvAbs = 0
  inReadReset : s.rrstN = false → s.readAtReset = true ∧ s.rAbs = 0 ∧ s.rpAbs = 0 ∧ s.wvAbs = 0

/-- What holds while a reset of the block is half asserted (70_reset_and_hazards.md R156): the one domain is in reset with
its registers at their reset values, the other out of reset, and the registers are in range. -/
structure HalfReset (s : State) : Prop where
  storage : s.storage.wf s.params.dataW s.params.cap = true
  registers : RegisterInv s
  alone :
    (s.resetAlone = some .producer ∧ s.wrstN = false ∧ s.rrstN = true ∧ s.writeAtReset = true) ∨
      (s.resetAlone = some .consumer ∧ s.rrstN = false ∧ s.wrstN = true ∧ s.readAtReset = true)

/-- What holds of every state a run from reset reaches. -/
abbrev BlockInv (s : State) : Prop := MachineInv s ∨ HalfReset s

/-- The range in which the read domain's arithmetic stands for level A (R103): no alias. -/
abbrev State.inRange (s : State) : Prop := s.wvAbs < s.rAbs + s.params.ptrMod

/-- The range in which the write domain's estimate stands for level A (R103). -/
abbrev State.estimateInRange (s : State) : Prop := s.wAbs < s.rpvAbs + s.params.ptrMod

/-- The read domain's view includes every write. -/
abbrev State.caughtUp (s : State) : Prop := s.wvAbs = s.wAbs

/-- An `rclk` edge out of reset leaves everything of the write domain, the storage, the pins and the drivers' lists as
they were, and does to the chain `WS`, the published pointer and `alias_seen` what every edge does (44_read_port.md R113,
70_reset_and_hazards.md R161). -/
structure ReadEdgeFrame (s t : State) : Prop where
  params : t.params = s.params
  storage : t.storage = s.storage
  wBin : t.wBin = s.wBin
  wGray : t.wGray = s.wGray
  wAbs : t.wAbs = s.wAbs
  rsStages : t.rs.stages = s.rs.stages
  rsAbs : t.rs.abs = s.rs.abs
  wrstN : t.wrstN = s.wrstN
  rrstN : t.rrstN = s.rrstN
  resetAlone : t.resetAlone = s.resetAlone
  wProg : t.wProg = s.wProg
  rProg : t.rProg = s.rProg
  sched : t.sched = s.sched
  ws : t.ws = s.ws.capture s.params s.draws s.wGray s.wAbs
  rpBin : t.rpBin = pgStep s.params s.rpBin s.rBin
  rpGray : t.rpGray = if s.rpBin = s.rBin then s.rpGray else code s.params (pgStep s.params s.rpBin s.rBin)
  rpAbs : t.rpAbs = if s.rpBin = s.rBin then s.rpAbs else s.rpAbs + 1
  aliasSeen : t.aliasSeen = (s.aliasSeen || decide (s.rAbs + s.params.ptrMod ≤ s.wvAbs))

/-- An `rclk` edge that moves the read pointer to the effective tail and no further, and leaves the PEEK registers as
they were (R113). -/
structure ReadsOnly (s t : State) : Prop extends ReadEdgeFrame s t where
  rBin : t.rBin = pgEffTail s.params s.rBin s.wv
  rAbs : t.rAbs = s.rAbs + pgDist s.params (pgEffTail s.params s.rBin s.wv) s.rBin

/-- A `wclk` edge out of reset leaves everything of the read domain, the pins and the drivers' lists as they were, and
shifts the chain `RS` (43_write_port.md R105). -/
structure WriteEdgeFrame (s t : State) : Prop where
  params : t.params = s.params
  rBin : t.rBin = s.rBin
  rpBin : t.rpBin = s.rpBin
  rpGray : t.rpGray = s.rpGray
  wsStages : t.ws.stages = s.ws.stages
  wsAbs : t.ws.abs = s.ws.abs
  pk : t.pk = s.pk
  rsp : t.rsp = s.rsp
  rAbs : t.rAbs = s.rAbs
  rpAbs : t.rpAbs = s.rpAbs
  pkBaseAbs : t.pkBaseAbs = s.pkBaseAbs
  aliasSeen : t.aliasSeen = s.aliasSeen
  overrunSeen : t.overrunSeen = s.overrunSeen
  wrstN : t.wrstN = s.wrstN
  rrstN : t.rrstN = s.rrstN
  resetAlone : t.resetAlone = s.resetAlone
  wProg : t.wProg = s.wProg
  rProg : t.rProg = s.rProg
  sched : t.sched = s.sched
  rs : t.rs = s.rs.capture s.params s.draws s.rpGray s.rpAbs

/-- A chain with its ghosts cleared. -/
def SyncChain.eraseGhosts (c : SyncChain) : SyncChain := { c with abs := c.abs.map fun _ => 0 }

/-- A state with every ghost of 10_state.md R34 cleared: two states with the same image are the same hardware. -/
def State.eraseGhosts (s : State) : State :=
  { s with
    ws := s.ws.eraseGhosts
    rs := s.rs.eraseGhosts
    wAbs := 0
    rAbs := 0
    rpAbs := 0
    pkBaseAbs := 0
    aliasSeen := false
    overrunSeen := false }

/-- The step writes an element only while `w_count ≤ cap - 3` (70_reset_and_hazards.md R162). -/
abbrev PacedStep (s : State) : Prop := ∀ v s', fetchW true (afterEvent s) = .command (.write v) s' →
  nextEvent s = .wclk true → s.wCount + 3 ≤ s.params.cap

/-- What a paced producer keeps: at most `cap - 2` writes beyond the published pointer the write domain sees and a
streaming PEEK's elements all still within reach. -/
structure PacedRoom (s : State) : Prop where
  machine : MachineInv s
  room : s.wAbs ≤ s.rpvAbs + (s.params.cap - 2)
  streaming : s.pk.active = true → s.pkBaseAbs = s.rAbs

/-- What every step of a paced block keeps: its room, but while a reset is half asserted, and no hazard seen. -/
structure PacedInv (s : State) : Prop where
  paced : PacedRoom s ∨ HalfReset s
  noAlias : s.aliasSeen = false
  noOverrun : s.overrunSeen = false

end Sys2Proof.Machine
end

