-- ==== Sys2Proof/Certificates/Slice0/Obligations.lean ====
section
/-! DEFINITION. The statements for the provers, from the spec's numbered rules. Every one is for every legal parameter
set unless it names `Params.default` (log 1), and for both accounts of the synchronizers unless it names one (log 3). -/

open Sys2Proof Sys2Proof.Machine

/-! ### Commands as words (30_encoding.md) -/

/-- R60 to R65: the decoder gives back every well-formed command, its operand at every value the field admits. -/
def Obligations.DecodeOfEncodeIsTheCommand : Prop :=
  ∀ (p : Params) (i : Instr), i.wellFormed p = true →
    encode p i < 2 ^ wordWidth p i.port ∧ decode p i.port (encode p i) = .ok i

/-- R60, R61, R64, R65, R67, R68: a word that decodes belongs to its port, has the command's opcode in its opcode field,
and is the command's canonical word but for an ignored field. -/
def Obligations.DecodedWordHasTheCommandsFields : Prop :=
  ∀ (p : Params) (port : Port) (w : Nat) (i : Instr), decode p port w = .ok i →
    i.port = port ∧ i.wellFormed p = true ∧ w < 2 ^ wordWidth p port ∧ w / 2 ^ fieldWidth p port = opcode i ∧
      (encode p i = w ∨
        ((i = .wNop ∨ i = .rNop ∨ i = .length) ∧ encode p i = w - w % 2 ^ fieldWidth p port))

/-- R66 (the model's part: reserved opcodes have no meaning), with any value in the low field. -/
def Obligations.ReservedOpcodesAreRefused : Prop :=
  ∀ (p : Params) (port : Port) (op field : Nat),
    (port = .producer ∧ (op = 2 ∨ op = 3)) ∨ (port = .consumer ∧ (op = 6 ∨ op = 7)) →
    field < 2 ^ fieldWidth p port →
      decode p port (op * 2 ^ fieldWidth p port + field) = .error (.reservedOpcode port op)

/-- R67: the ignored fields. -/
def Obligations.IgnoredFieldsDoNotMatter : Prop :=
  ∀ (p : Params) (data arg : Nat), data < 2 ^ p.dataW → arg < 2 ^ p.argW →
    decode p .producer data = .ok .wNop ∧ decode p .consumer arg = .ok .rNop ∧
      decode p .consumer (3 * 2 ^ p.argW + arg) = .ok .length ∧
      encode p .wNop = 0 ∧ encode p .rNop = 0 ∧ encode p .length = 3 * 2 ^ p.argW

/-- 95_test_vectors.md 2.1: words written out from R60 to R65 for DATA_W = 8 and ARG_W = 16, and two reserved ones. The
port is read from the row's length: the model's choice, log 16. -/
def Obligations.WordsOfTheTableDecode : Prop :=
  decodeTableWord 16 0x000 = some .wNop ∧ decodeTableWord 16 0x141 = some (.write 0x41) ∧
    decodeTableWord 24 0x00000 = some .rNop ∧ decodeTableWord 24 0x10009 = some (.peek 9) ∧
    decodeTableWord 24 0x2FFFF = some (.deleteOldest 65535) ∧ decodeTableWord 24 0x31234 = some .length ∧
    decodeTableWord 24 0x40002 = some (.getNth 2) ∧ decodeTableWord 24 0x50003 = some (.getNthChecked 3) ∧
    decodeTableWord 16 0x205 = none ∧ decodeTableWord 24 0x70000 = none

/-- R69: a line whose operand fits assembles to its word, and one whose operand does not is rejected. -/
def Obligations.AssemblerRejectsWhatDoesNotFit : Prop :=
  ∀ (p : Params) (v a : Nat),
    (v < 2 ^ p.dataW → assemble p (.wWrite v) = .ok [2 ^ p.dataW + v]) ∧
      (2 ^ p.dataW ≤ v → assemble p (.wWrite v) = .error (.operandTooLarge (.write v))) ∧
      (a < 2 ^ p.argW → assemble p (.rPeek a) = .ok [2 ^ p.argW + a] ∧ assemble p (.rDelete a) = .ok [2 * 2 ^ p.argW + a] ∧
        assemble p (.rNth a) = .ok [4 * 2 ^ p.argW + a] ∧ assemble p (.rNthc a) = .ok [5 * 2 ^ p.argW + a]) ∧
      (2 ^ p.argW ≤ a → assemble p (.rPeek a) = .error (.operandTooLarge (.peek a)) ∧
        assemble p (.rDelete a) = .error (.operandTooLarge (.deleteOldest a)) ∧
        assemble p (.rNth a) = .error (.operandTooLarge (.getNth a)) ∧
        assemble p (.rNthc a) = .error (.operandTooLarge (.getNthChecked a)))

/-! ### From a word to a step (30_encoding.md R58, R59, 45_synchronizer.md R130) -/

/-- R58, R59, R130: with no reset half asserted, an edge runs exactly the decoded command where its port accepts one, and a
NOP of the port (a beat while a PEEK streams, nothing in reset) where it does not; the word leaves the driver's list only
when accepted. -/
def Obligations.StepRunsTheFetchedCommand : Prop :=
  ∀ (s : State) (w : Nat) (rest : List Nat) (i : Instr) (present : Bool), s.resetAlone = none →
    (nextEvent s = .wclk true → s.wrstN = true → s.wProg = w :: rest → decode s.params .producer w = .ok i →
      step s = exec i { afterEvent s with wProg := rest }) ∧
    (nextEvent s = .rclk true → s.rrstN = true → s.pk.active = false → s.rProg = w :: rest →
      decode s.params .consumer w = .ok i → step s = exec i { afterEvent s with rProg := rest }) ∧
    (nextEvent s = .wclk present → (present = false ∨ s.wProg = [] ∨ s.wrstN = false) →
      step s = exec .wNop (afterEvent s)) ∧
    (nextEvent s = .rclk present → (present = false ∨ s.rProg = [] ∨ s.rrstN = false ∨ s.pk.active = true) →
      step s = exec .rNop (afterEvent s))

/-- Log 8: a word of the opcode table placed by `withFetchWord` is what the next step runs, the port made ready. -/
def Obligations.PlacedWordRunsNext : Prop :=
  ∀ (s : State) (nbits w : Nat) (i : Instr), s.params = Params.default → decodeTableWord nbits w = some i →
    step (s.withFetchWord nbits w) = exec i (match tablePort nbits with
      | .producer => { s with wrstN := true, resetAlone := none }
      | .consumer => { s with rrstN := true, resetAlone := none, pk := { s.pk with active := false } })

/-- R66: a port that accepts a reserved word stops the model by name, and so does one whose word does not fit its wires
(R68; the model's choice, log 11). -/
def Obligations.AcceptedReservedWordStops : Prop :=
  ∀ (s : State) (w : Nat) (rest : List Nat) (e : DecodeError), s.resetAlone = none →
    (nextEvent s = .wclk true → s.wrstN = true → s.wProg = w :: rest → decode s.params .producer w = .error e →
      step s = .refused (refusalOf e)) ∧
    (nextEvent s = .rclk true → s.rrstN = true → s.pk.active = false → s.rProg = w :: rest →
      decode s.params .consumer w = .error e → step s = .refused (refusalOf e))

/-- R12, R134, R139, R140: no step faults, and from every state a run reaches a step stops only for a named reason. With no
reset half asserted: an accepted word that is no command (R66; log 11 for one too wide), or a scheduled synchronizer step
that R129 does not have (the model's choice, log 14). With one reset asserted alone (R157, log 12): a step of the running
domain or of its view, a release of the reset, or a synchronizer step scheduled where the chains have none. -/
def Obligations.StepStopsOnlyForItsNamedReasons : Prop :=
  ∀ s : State,
    (MachineInv s → (∃ t, step s = .next t) ∨
      (∃ w rest e, nextEvent s = .wclk true ∧ s.wrstN = true ∧ s.wProg = w :: rest ∧
        decode s.params .producer w = .error e ∧ step s = .refused (refusalOf e)) ∨
      (∃ w rest e, nextEvent s = .rclk true ∧ s.rrstN = true ∧ s.pk.active = false ∧ s.rProg = w :: rest ∧
        decode s.params .consumer w = .error e ∧ step s = .refused (refusalOf e)) ∨
      (s.sched ≠ [] ∧ s.params.sync = .chains ∧
        (∃ target, nextEvent s = .syncW2R target ∨ nextEvent s = .syncR2W target) ∧ step s = .refused .noSyncStep) ∨
      (s.sched ≠ [] ∧ s.params.sync = .abstract ∧ ∃ k, step s = .refused (.syncOutOfRange k) ∧
        ((nextEvent s = .syncW2R (some k) ∧ s.rrstN = true ∧ (k < s.wvAbs ∨ s.wAbs < k)) ∨
          (nextEvent s = .syncR2W (some k) ∧ s.wrstN = true ∧ (k < s.rpvAbs ∨ s.rpAbs < k))))) ∧
    (HalfReset s → (∃ t, step s = .next t) ∨
      (s.resetAlone = some .producer ∧ step s = .refused .partialReset ∧
        ((∃ b, nextEvent s = .rclk b) ∨ (∃ k, nextEvent s = .syncW2R k) ∨ (∃ r, nextEvent s = .pins true r))) ∨
      (s.resetAlone = some .consumer ∧ step s = .refused .partialReset ∧
        ((∃ b, nextEvent s = .wclk b) ∨ (∃ k, nextEvent s = .syncR2W k) ∨ (∃ w, nextEvent s = .pins w true))) ∨
      (s.sched ≠ [] ∧ s.params.sync = .chains ∧
        (∃ target, nextEvent s = .syncW2R target ∨ nextEvent s = .syncR2W target) ∧ step s = .refused .noSyncStep))

/-! ### gray_counter (41_gray_counter.md) -/

/-- R85: the reflected Gray code, its inverse as the XOR of the shifts and bit by bit, and that the one undoes the
other. -/
def Obligations.UngrayInvertsGray : Prop :=
  ∀ n x g : Nat,
    gray x = x ^^^ (x >>> 1) ∧
      ungray n g = ((List.range n).map fun i => g >>> i).foldl (· ^^^ ·) 0 ∧
      (g < 2 ^ (n + 1) → (ungray (n + 1) g).testBit n = g.testBit n ∧
        ∀ i, i < n → (ungray (n + 1) g).testBit i = ((ungray (n + 1) g).testBit (i + 1) ^^ g.testBit i)) ∧
      (x < 2 ^ n → ungray n (gray x) = x)

/-- R86, R87, R88: the valid codes are exactly the codes of the M pointers, they are distinct PW-bit values, and the
decoder, which depends on no draw there, gives the pointer back. -/
def Obligations.PointerCodesDecode : Prop :=
  ∀ (p : Params) (port : Port) (n : Nat),
    (∀ g, validCode p g = true ↔ ∃ b, b < p.ptrMod ∧ code p b = g) ∧
      (∀ b, b < p.ptrMod → code p b < 2 ^ ptrWidth p ∧ decodeCode p port n (code p b) = b) ∧
      ∀ g, decodeCode p port n g < p.ptrMod

/-- R89 and the step of R90: the codes of a pointer and of its successor differ in exactly one bit, at the wrap in the
top bit, and a gray_counter's edge keeps its code that of its pointer. -/
def Obligations.CounterEdgeChangesAtMostOneBit : Prop :=
  ∀ (p : Params) (b : Nat) (en : Bool), b < p.ptrMod →
    (∃ k, k < ptrWidth p ∧ code p b ^^^ code p ((b + 1) % p.ptrMod) = 2 ^ k) ∧
      code p (p.ptrMod - 1) ^^^ code p 0 = 2 ^ (ptrWidth p - 1) ∧
      GrayCounter.edge p en ⟨b, code p b⟩ =
        (if en then ⟨(b + 1) % p.ptrMod, code p ((b + 1) % p.ptrMod)⟩ else ⟨b, code p b⟩)

/-! ### pointer_generator (42_pointer_generator.md) -/

/-- R93, R94, R95: formulas, hardware forms (the sum of PG.add in PW + 1 bits), corners, and the level-A formulas they are
the images of. -/
def Obligations.IncAddSubHaveTheirHardwareForms : Prop :=
  ∀ (p : Params) (a k : Nat), a < p.ptrMod → k < p.ptrMod →
    (pgInc p a = (a + 1) % p.ptrMod ∧ pgInc p a = pgIncHw p a ∧ pgInc p (p.ptrMod - 1) = 0 ∧
        pgInc p a % p.cap = (a % p.cap + 1) % p.cap) ∧
      (pgAdd p a k = (a + k) % p.ptrMod ∧ pgAdd p a k = pgAddHw p a k ∧ a + k < 2 ^ (ptrWidth p + 1) ∧ pgAdd p a 0 = a ∧
        pgAdd p a k % p.cap = (a % p.cap + k) % p.cap) ∧
      ((pgSub p a k : Int) = ((a : Int) - (k : Int)) % (p.ptrMod : Int) ∧ pgSub p a k = pgSubHw p a k) ∧
      (p.ptrMod = 20 → pgInc p 19 = 0 ∧ pgInc p 9 = 10 ∧ pgAdd p 18 5 = 3 ∧ pgSub p 3 9 = 14)

/-- R96, R99: distance and occupancy, with the level-A formula where the distance is below cap. -/
def Obligations.CountIsTheClampedDistance : Prop :=
  ∀ (p : Params) (r wv : Nat), r < p.ptrMod → wv < p.ptrMod →
    pgDist p wv r = pgSub p wv r ∧
      (pgDist p wv r : Int) = ((wv : Int) - (r : Int)) % (p.ptrMod : Int) ∧ pgDist p wv r < p.ptrMod ∧
      (pgDist p wv r < p.cap →
        ((pgDist p wv r % p.cap : Nat) : Int) = (((wv % p.cap : Nat) : Int) - ((r % p.cap : Nat) : Int)) % (p.cap : Int)) ∧
      pgCount p r wv = pgDist p wv (pgEffTail p r wv) ∧ pgCount p r wv = min (pgDist p wv r) (p.cap - 1) ∧
      pgCount p r wv ≤ p.cap - 1 ∧ pgCount p r wv < 2 ^ countWidth p ∧
      (p.ptrMod = 20 → pgDist p 5 16 = 9) ∧ (p.ptrMod = 20 → p.cap = 10 → pgCount p 0 15 = 9)

/-- R101: the getNth slot is in range for every index, has its hardware form, is `(Wv - 1 - i) mod cap`, is
the slot GET_NTH's pointer has, and in contract is the document's formula. -/
def Obligations.NthSlotIsTheDocumentsFormula : Prop :=
  ∀ (p : Params) (wv i : Nat), wv < p.ptrMod →
    pgNthIdx p wv i < p.cap ∧
      pgNthIdx p wv i = (wv % p.cap + p.cap - 1 - i % p.cap) % p.cap ∧
      ((pgNthIdx p wv i : Int) = ((wv : Int) - 1 - (i : Int)) % (p.cap : Int)) ∧
      (i < p.cap → pgIdx p (pgSub p wv (i + 1)) = pgNthIdx p wv i) ∧
      (i < p.cap - 1 → pgNthIdx p wv i =
        if i < wv % p.cap then wv % p.cap - i - 1 else p.cap - 1 + wv % p.cap - i) ∧
      (p.cap = 11 → pgNthIdx p 3 0 = 2 ∧ pgNthIdx p 3 2 = 0)

/-- R102: the published pointer stays where it is level, and elsewhere comes one step nearer, never passing. -/
def Obligations.PublishedPointerComesOneStepNearer : Prop :=
  ∀ (p : Params) (rp r : Nat), rp < p.ptrMod → r < p.ptrMod →
    (rp = r → pgStep p rp r = rp) ∧ (rp ≠ r → pgDist p r rp = pgDist p r (pgStep p rp r) + 1)

/-- R103: in range the mod-M arithmetic is the absolute one, and the write-side estimate is at least the occupancy. -/
def Obligations.ArithmeticInRangeStandsForAbsoluteCounts : Prop :=
  ∀ (p : Params) (r wv : Nat), r ≤ wv → wv - r < p.ptrMod →
    pgDist p (wv % p.ptrMod) (r % p.ptrMod) = wv - r ∧
      pgEffTail p (r % p.ptrMod) (wv % p.ptrMod) = max r (wv - (p.cap - 1)) % p.ptrMod ∧
      pgCount p (r % p.ptrMod) (wv % p.ptrMod) = wv - max r (wv - (p.cap - 1)) ∧
      pgWcount p (wv % p.ptrMod) (r % p.ptrMod) = min (wv - r) (p.cap - 1) ∧
      ∀ rTrue, r ≤ rTrue → rTrue ≤ wv →
        wv - max rTrue (wv - (p.cap - 1)) ≤ pgWcount p (wv % p.ptrMod) (r % p.ptrMod)

/-- R104: over every sequence of writes and deletes the level-A tail is `max(Rd, H - (cap - 1))`, so that a read domain
that keeps only `Rd` has it. -/
def Obligations.ImplicitEvictionGivesTheLevelATail : Prop :=
  ∀ (cap dataW : Nat) (storage : Storage) (ops : List RefOp), 2 ≤ cap →
    let c := Counts.run cap ops ⟨0, 0, 0⟩
    let a := RefOp.run ops ⟨cap, dataW, storage, 0, 0⟩
    c.tail = max c.afterDelete (c.written - (cap - 1)) ∧ c.tail ≤ c.written ∧
      a.head = c.written % cap ∧ a.tail = c.tail % cap ∧ a.occ = c.written - c.tail

/-! ### Reset (70_reset_and_hazards.md, 10_state.md) -/

/-- R35 (with the values of R28, R29, R34): what the reset of the whole block leaves, and the level-A state it stands
for. -/
def Obligations.ResetGivesEveryRegisterItsValue : Prop :=
  ∀ s : State, ∃ t, eventStep .reset s = .next t ∧
    t.wBin = 0 ∧ t.wGray = code s.params 0 ∧ t.rs.stages = List.replicate s.params.syncStages (code s.params 0) ∧
    t.rBin = 0 ∧ t.rpBin = 0 ∧ t.rpGray = code s.params 0 ∧
    t.ws.stages = List.replicate s.params.syncStages (code s.params 0) ∧
    t.pk = ⟨false, 0, 0, 0, false⟩ ∧ t.rsp = ⟨false, false, 0, 0, false, false⟩ ∧
    t.wAbs = 0 ∧ t.rAbs = 0 ∧ t.rpAbs = 0 ∧ t.wvAbs = 0 ∧ t.rpvAbs = 0 ∧ t.pkBaseAbs = 0 ∧
    t.aliasSeen = false ∧ t.overrunSeen = false ∧ t.resetAlone = none ∧ t.storage = s.storage ∧ t.params = s.params ∧
    t.levelA.head = 0 ∧ t.levelA.tail = 0 ∧ t.levelA.occ = 0 ∧ t.occA = 0

/-- R7, R138 and R75: no instance of an illegal parameter set, no buffer of capacity 0 or 1. -/
def Obligations.IllegalParametersHaveNoInstance : Prop :=
  ∀ (r : RawParams) (storage : Storage) (wProg rProg : List Nat) (sched : List Event) (dataW capacity : Nat),
    (¬ r.Legal → elaborate r storage wProg rProg sched = .refused .invalidConstruction) ∧
      (r.cap < 2 → elaborate r storage wProg rProg sched = .refused .invalidConstruction) ∧
      (r.Legal → ∃ s, elaborate r storage wProg rProg sched = .next s ∧ s.params.toRawParams = r ∧
        s.storage = storage ∧ s.wBin = 0 ∧ s.rBin = 0) ∧
      (capacity < 2 → RefState.init dataW storage capacity = .refused .invalidConstruction) ∧
      (2 ≤ capacity → RefState.init dataW storage capacity = .next ⟨capacity, dataW, storage, 0, 0⟩)

/-- R158: outputs during reset, and that nothing presented then has an effect. -/
def Obligations.NothingIsAcceptedDuringReset : Prop :=
  ∀ s : State,
    (s.wrstN = false → s.wReady = false ∧ s.wCount = 0 ∧ s.wAtCapacity = false ∧
      (∀ i, i.port = .producer → exec i s = .next s) ∧
      ∀ present, nextEvent s = .wclk present → step s = .next (afterEvent s)) ∧
    (s.rrstN = false → s.rReady = false ∧ s.rCount = 0 ∧ s.rEmpty = true ∧
      s.rspOut = ⟨false, false, 0, 0, false, false⟩ ∧
      (∀ i, i.port = .consumer → exec i s = .next s) ∧
      ∀ present, nextEvent s = .rclk present → step s = .next (afterEvent s))

/-- R156, R157: asserting both resets resets the whole block from any state, at once or one after the other in either order,
and releasing one changes no register. Between two assertions the domain in reset has its reset values and nothing else has
changed; a step of the running domain or of its view, or a release before the overlap, is a partial reset and refused. What
"has left its reset state" means, and that the running domain takes no step between, are the model's reading (log 12). That a reset asserted alone
beside a running domain at its reset values also empties the capture windows is the model's choice (log 26). -/
def Obligations.WholeResetAssertsEitherPinFirst : Prop :=
  ∀ s : State, s.resetAlone = none →
    (s.wrstN = true ∨ s.rrstN = true → eventStep (.pins false false) s = .next (resetRegs false false s)) ∧
      (s.wrstN = false → eventStep (.pins true s.rrstN) s = .next { s with wrstN := true }) ∧
      (s.rrstN = false → eventStep (.pins s.wrstN true) s = .next { s with rrstN := true }) ∧
      (s.wrstN = true → s.rrstN = true →
        (s.readAtReset = true → eventStep (.pins false true) s = .next (resetRegs false true s)) ∧
        (s.writeAtReset = true → eventStep (.pins true false) s = .next (resetRegs true false s)) ∧
        (s.readAtReset = false → ∃ h, eventStep (.pins false true) s = .next h ∧ h.resetAlone = some .producer ∧
          h.wrstN = false ∧ h.writeAtReset = true ∧
          { h with wBin := s.wBin, wGray := s.wGray, rs := s.rs, wrstN := true, resetAlone := none } = s ∧
          eventStep (.pins false false) h = .next (resetRegs false false s) ∧
          (∀ b, eventStep (.wclk b) h = .next h) ∧ (∀ b, eventStep (.rclk b) h = .refused .partialReset) ∧
          (∀ k, eventStep (.syncW2R k) h = .refused .partialReset) ∧
          ∀ r, eventStep (.pins true r) h = .refused .partialReset) ∧
        (s.writeAtReset = false → ∃ h, eventStep (.pins true false) s = .next h ∧ h.resetAlone = some .consumer ∧
          h.rrstN = false ∧ h.readAtReset = true ∧
          { h with rBin := s.rBin, rpBin := s.rpBin, rpGray := s.rpGray, ws := s.ws, pk := s.pk, rsp := s.rsp,
                   rrstN := true, resetAlone := none } = s ∧
          eventStep (.pins false false) h = .next (resetRegs false false s) ∧
          (∀ b, eventStep (.rclk b) h = .next h) ∧ (∀ b, eventStep (.wclk b) h = .refused .partialReset) ∧
          (∀ k, eventStep (.syncR2W k) h = .refused .partialReset) ∧
          ∀ w, eventStep (.pins w true) h = .refused .partialReset))

/-! ### Producer port (43_write_port.md): each rule with its frame -/

/-- R106: W_NOP runs and does nothing but the per-edge updates of R105. -/
def Obligations.WNopOnlyShiftsTheChain : Prop :=
  ∀ s : State, s.wrstN = true → ∃ t, exec .wNop s = .next t ∧ WriteEdgeFrame s t ∧
    t.storage = s.storage ∧ t.wBin = s.wBin ∧ t.wGray = s.wGray ∧ t.wAbs = s.wAbs ∧ t.ws = s.ws

/-- R107: WRITE runs on every state out of reset, whatever the occupancy; the element is at the slot of `W_bin`, the
pointer, its code and its count advance, and nothing else of the storage or the read domain changes. -/
def Obligations.WriteStoresAtTheHeadAndAdvances : Prop :=
  ∀ (s : State) (v : Nat), s.wrstN = true → ∃ t, exec (.write v) s = .next t ∧ WriteEdgeFrame s t ∧
    t.storage.read s.params.dataW (pgIdx s.params s.wBin) = v % 2 ^ s.params.dataW ∧
    (∀ slot, slot ≠ pgIdx s.params s.wBin →
      t.storage.read s.params.dataW slot = s.storage.read s.params.dataW slot) ∧
    t.wBin = pgInc s.params s.wBin ∧ t.wGray = code s.params (pgInc s.params s.wBin) ∧ t.wAbs = s.wAbs + 1

/-- R76 by way of R104: at level A every WRITE is `write1`, eviction included. -/
def Obligations.WriteIsLevelAWrite : Prop :=
  ∀ (s : State) (v : Nat), MachineInv s → s.wrstN = true →
    ∃ t, exec (.write v) s = .next t ∧ t.levelA = s.levelA.write1 v ∧
      t.occA = min (s.occA + 1) (s.params.cap - 1)

/-- R70, R77, R110: the words of W.WRITESEQ, on consecutive edges, are the level-A `write`. -/
def Obligations.WriteSequenceIsLevelAWrite : Prop :=
  ∀ (s : State) (vs : List Nat), MachineInv s → s.wrstN = true → (∀ v ∈ vs, v < 2 ^ s.params.dataW) →
    ∃ t, runEvents (List.replicate vs.length (.wclk true))
        { s with wProg := (expandWriteSeq vs).map (encode s.params) } = .next t ∧
      t.wProg = [] ∧ t.levelA = s.levelA.write vs

/-- R71, R83, R111: what W.TEXT expands to, what it refuses, and that level-A writeText writes the same elements. -/
def Obligations.TextExpandsUpToTheSentinel : Prop :=
  ∀ (p : Params) (text : List Nat) (maxScan : Nat) (a : RefState), a.dataW = p.dataW →
    (p.dataW ≠ 8 → expandText p text (some maxScan) = .error .textNotByte ∧
      a.writeText p.textSentinel text maxScan = .refused .textNotByte) ∧
    (p.dataW = 8 →
      (∃ l, l ≤ maxScan ∧ l ≤ text.length ∧ (∀ t ∈ text.take l, t ≠ p.textSentinel) ∧
        (l = maxScan ∨ text[l]? = some p.textSentinel) ∧
        expandText p text (some maxScan) = .ok ((text.take l).map .write) ∧
        a.writeText p.textSentinel text maxScan = .next (a.write (text.take l))) ∨
      (text.length < maxScan ∧ (∀ t ∈ text, t ≠ p.textSentinel) ∧
        expandText p text (some maxScan) = .error .textUnterminated ∧
        a.writeText p.textSentinel text maxScan = .refused .textUnterminated))

/-- R109 with R100 and R103: in range, `w_count` is at least the level-A occupancy and never above cap - 1. -/
def Obligations.WriteCountIsConservative : Prop :=
  ∀ s : State, MachineInv s → s.wrstN = true → s.estimateInRange →
    s.wCount = min (s.wAbs - s.rpvAbs) (s.params.cap - 1) ∧ s.occA ≤ s.wCount ∧
      (s.wAtCapacity = true ↔ s.wCount = s.params.cap - 1)

/-! ### Consumer port (44_read_port.md): each rule with its frame -/

/-- R117: R_NOP runs and does nothing but the per-edge updates of R113. -/
def Obligations.RNopOnlyNormalises : Prop :=
  ∀ s : State, s.rrstN = true → s.pk.active = false → ∃ t, exec .rNop s = .next t ∧ ReadsOnly s t ∧
    t.rsp = ⟨false, false, 0, 0, false, false⟩ ∧ t.pk = s.pk ∧ t.pkBaseAbs = s.pkBaseAbs ∧
    t.overrunSeen = s.overrunSeen

/-- R118: PEEK's accepting edge. The data of beat 0 is the slot's element but in the race of R114. -/
def Obligations.PeekAnswersItsFirstBeat : Prop :=
  ∀ (s : State) (a : Nat), s.rrstN = true → s.pk.active = false → a < 2 ^ s.params.argW →
    ∃ t, exec (.peek a) s = .next t ∧ ReadsOnly s t ∧
      (min s.cnt a = 0 → t.rsp = ⟨true, false, 0, 0, decide (s.cnt < a), true⟩ ∧ t.pk = s.pk ∧
        t.pkBaseAbs = s.pkBaseAbs ∧ t.overrunSeen = s.overrunSeen) ∧
      (min s.cnt a ≠ 0 →
        (∃ d, t.rsp = ⟨true, true, d, min s.cnt a, decide (s.cnt < a), decide (min s.cnt a = 1)⟩ ∧
          (pgIdx s.params s.effTail ≠ pgIdx s.params s.wBin →
            d = s.storage.read s.params.dataW (pgIdx s.params s.effTail)) ∧
          (pgIdx s.params s.effTail = pgIdx s.params s.wBin → d < 2 ^ s.params.dataW)) ∧
        t.overrunSeen = (s.overrunSeen || decide (s.effTailAbs + s.params.cap ≤ s.wAbs)) ∧
        (min s.cnt a = 1 → t.pk = s.pk ∧ t.pkBaseAbs = s.pkBaseAbs) ∧
        (2 ≤ min s.cnt a → t.pk = ⟨true, s.effTail, min s.cnt a, 1, decide (s.cnt < a)⟩ ∧
          t.pkBaseAbs = s.effTailAbs))

/-- R119, R59, R115, R141: while a PEEK streams, an edge is its beat whatever command is presented. -/
def Obligations.StreamingPeekTakesTheEdge : Prop :=
  ∀ (s : State) (i : Instr), i.port = .consumer → s.rrstN = true → s.pk.active = true →
    ∃ t, exec i s = .next t ∧ ReadsOnly s t ∧ s.rReady = false ∧ t.pkBaseAbs = s.pkBaseAbs ∧
      (∃ d, t.rsp = ⟨true, true, d, s.pk.n, s.pk.trunc, decide (s.pk.j + 1 = s.pk.n)⟩ ∧
        (pgIdx s.params (pgAdd s.params s.pk.base s.pk.j) ≠ pgIdx s.params s.wBin →
          d = s.storage.read s.params.dataW (pgIdx s.params (pgAdd s.params s.pk.base s.pk.j))) ∧
        (pgIdx s.params (pgAdd s.params s.pk.base s.pk.j) = pgIdx s.params s.wBin → d < 2 ^ s.params.dataW)) ∧
      t.overrunSeen = (s.overrunSeen || decide (s.pkBaseAbs + s.pk.j + s.params.cap ≤ s.wAbs)) ∧
      (s.pk.j + 1 = s.pk.n → t.pk = { s.pk with active := false }) ∧
      (s.pk.j + 1 ≠ s.pk.n → t.pk = { s.pk with j := s.pk.j + 1 })

/-- R120, R139: DELETE_OLDEST completes in one edge, clamped, with no response; one that empties the view puts the read
pointer at the view. -/
def Obligations.DeleteMovesTheReadPointerClamped : Prop :=
  ∀ (s : State) (a : Nat), s.rrstN = true → s.pk.active = false → a < 2 ^ s.params.argW →
    ∃ t, exec (.deleteOldest a) s = .next t ∧ ReadEdgeFrame s t ∧
      t.rBin = pgAdd s.params s.effTail (min a s.cnt) ∧ (s.cnt ≤ a → t.rBin = s.wv) ∧
      t.rAbs = s.rAbs + pgDist s.params (pgAdd s.params s.effTail (min a s.cnt)) s.rBin ∧
      t.rsp = ⟨false, false, 0, 0, false, false⟩ ∧ t.pk = s.pk ∧ t.pkBaseAbs = s.pkBaseAbs ∧
      t.overrunSeen = s.overrunSeen

/-- R121: LENGTH reports the count. -/
def Obligations.LengthReportsTheCount : Prop :=
  ∀ s : State, s.rrstN = true → s.pk.active = false → ∃ t, exec .length s = .next t ∧ ReadsOnly s t ∧
    t.rsp = ⟨true, false, 0, s.cnt, false, true⟩ ∧ t.pk = s.pk ∧ t.pkBaseAbs = s.pkBaseAbs ∧
    t.overrunSeen = s.overrunSeen

/-- R122, R137: GET_NTH in and out of contract. -/
def Obligations.GetNthReadsTheNthNewest : Prop :=
  ∀ (s : State) (i : Nat), s.rrstN = true → s.pk.active = false → i < 2 ^ s.params.argW →
    ∃ t, exec (.getNth i) s = .next t ∧ ReadsOnly s t ∧ t.pk = s.pk ∧ t.pkBaseAbs = s.pkBaseAbs ∧
      (∃ d, t.rsp = ⟨true, true, d, 0, false, true⟩ ∧
        (i < s.cnt → pgIdx s.params (pgSub s.params s.wv (i + 1)) ≠ pgIdx s.params s.wBin →
          d = s.storage.read s.params.dataW (pgIdx s.params (pgSub s.params s.wv (i + 1)))) ∧
        (i < s.cnt → pgIdx s.params (pgSub s.params s.wv (i + 1)) = pgIdx s.params s.wBin →
          d < 2 ^ s.params.dataW) ∧
        (s.cnt ≤ i → d < 2 ^ s.params.dataW)) ∧
      (i < s.cnt → t.overrunSeen = (s.overrunSeen || decide (s.wvAbs + s.params.cap ≤ s.wAbs + 1 + i))) ∧
      (s.cnt ≤ i → t.overrunSeen = s.overrunSeen)

/-- R123: GET_NTH_CHECKED in and out of range. -/
def Obligations.GetNthCheckedFlagsOutOfRange : Prop :=
  ∀ (s : State) (i : Nat), s.rrstN = true → s.pk.active = false → i < 2 ^ s.params.argW →
    ∃ t, exec (.getNthChecked i) s = .next t ∧ ReadsOnly s t ∧ t.pk = s.pk ∧ t.pkBaseAbs = s.pkBaseAbs ∧
      (i < s.cnt → t.overrunSeen = (s.overrunSeen || decide (s.wvAbs + s.params.cap ≤ s.wAbs + 1 + i)) ∧
        ∃ d, t.rsp = ⟨true, true, d, 0, false, true⟩ ∧
          (pgIdx s.params (pgSub s.params s.wv (i + 1)) ≠ pgIdx s.params s.wBin →
            d = s.storage.read s.params.dataW (pgIdx s.params (pgSub s.params s.wv (i + 1)))) ∧
          (pgIdx s.params (pgSub s.params s.wv (i + 1)) = pgIdx s.params s.wBin → d < 2 ^ s.params.dataW)) ∧
      (s.cnt ≤ i → t.rsp = ⟨true, false, 0, 0, true, true⟩ ∧ t.overrunSeen = s.overrunSeen)

/-- R72: R.DELETEALL empties the buffer as the read domain sees it. -/
def Obligations.DeleteAllEmptiesTheView : Prop :=
  ∀ s : State, MachineInv s → s.rrstN = true → s.pk.active = false →
    expandDeleteAll s.params = [.deleteOldest (2 ^ s.params.argW - 1)] ∧
      ∃ t, exec (.deleteOldest (2 ^ s.params.argW - 1)) s = .next t ∧ t.rBin = s.wv ∧
        pgCount s.params t.rBin s.wv = 0 ∧ (s.params.sync = .abstract → t.rCount = 0 ∧ t.rEmpty = true)

/-- R116 with R103: in range, `r_count` counts the writes the view includes and is at most the level-A occupancy. -/
def Obligations.ReadCountIsAtMostTheOccupancy : Prop :=
  ∀ s : State, MachineInv s → s.rrstN = true → s.inRange →
    s.rCount = s.wvAbs - s.effTailAbs ∧ s.rCount ≤ s.occA ∧ (s.caughtUp → s.rCount = s.occA) ∧
      (s.rEmpty = true ↔ s.rCount = 0)

/-- R118, R119, R42: with no write between and the oldest element still within reach, PEEK's beat `k` carries the element
`k` from the effective tail the accepting edge saw, and the last of the `min(cnt, a)` beats ends the response. -/
def Obligations.PeekStreamsTheOldestElements : Prop :=
  ∀ (s : State) (a k : Nat), MachineInv s → s.rrstN = true → s.pk.active = false → s.inRange →
    s.wAbs < s.effTailAbs + s.params.cap → a < 2 ^ s.params.argW → k < min s.cnt a →
    ∃ t, runEvents (.rclk true :: List.replicate k (.rclk false))
        { s with rProg := [encode s.params (.peek a)] } = .next t ∧
      t.rsp = ⟨true, true, s.storage.read s.params.dataW ((s.effTailAbs + k) % s.params.cap), min s.cnt a,
        decide (s.cnt < a), decide (k + 1 = min s.cnt a)⟩ ∧
      (t.pk.active = true ↔ k + 1 < min s.cnt a) ∧ t.overrunSeen = s.overrunSeen

/-- R114, R162: an element the writer has not reached is read exactly, and one the next write targets races. -/
def Obligations.UnreachedElementsAreReadExactly : Prop :=
  ∀ (s : State) (pos : Nat), MachineInv s → pos < s.wAbs →
    (s.wAbs < pos + s.params.cap →
      readElem s (pos % s.params.ptrMod) = s.storage.read s.params.dataW (pos % s.params.cap) ∧
        overrunAt s pos = false) ∧
      (s.wAbs = pos + s.params.cap →
        pgIdx s.params (pos % s.params.ptrMod) = pgIdx s.params s.wBin ∧ overrunAt s pos = true)

/-! ### Crossing the clock domains (45_synchronizer.md, 20_memory.md) -/

/-- R126, R127, R129: each view decodes to its ghost mod M, which never is ahead of its source. -/
def Obligations.ViewsAreEarlierSourceValues : Prop :=
  ∀ s : State, MachineInv s →
    s.wv = s.wvAbs % s.params.ptrMod ∧ s.wvAbs ≤ s.wAbs ∧ s.rpv = s.rpvAbs % s.params.ptrMod ∧ s.rpvAbs ≤ s.rpAbs

/-- R48: no agent's step moves a view back. -/
def Obligations.ViewsNeverGoBack : Prop :=
  ∀ s t : State, MachineInv s → (nextEvent s).isAgentStep = true → step s = .next t →
    s.wvAbs ≤ t.wvAbs ∧ t.wvAbs ≤ t.wAbs ∧ s.rpvAbs ≤ t.rpvAbs ∧ t.rpvAbs ≤ t.rpAbs ∧ s.rpAbs ≤ t.rpAbs

/-- R129: a synchronizer step moves its view to any value in range, and nothing else. One scheduled out of range is
refused: the model's choice, log 14. -/
def Obligations.SyncStepMovesOnlyItsView : Prop :=
  ∀ (s : State) (k : Nat), MachineInv s → s.params.sync = .abstract →
    (s.rrstN = true →
      (s.wvAbs ≤ k → k ≤ s.wAbs → ∃ t, eventStep (.syncW2R (some k)) s = .next t ∧
        t.wvAbs = k ∧ t.wv = k % s.params.ptrMod ∧ { t with ws := s.ws } = s) ∧
      (k < s.wvAbs ∨ s.wAbs < k → eventStep (.syncW2R (some k)) s = .refused (.syncOutOfRange k))) ∧
    (s.wrstN = true →
      (s.rpvAbs ≤ k → k ≤ s.rpAbs → ∃ t, eventStep (.syncR2W (some k)) s = .next t ∧
        t.rpvAbs = k ∧ t.rpv = k % s.params.ptrMod ∧ { t with rs := s.rs } = s) ∧
      (k < s.rpvAbs ∨ s.rpAbs < k → eventStep (.syncR2W (some k)) s = .refused (.syncOutOfRange k)))

/-- R124, R125: at an edge of its clock a chain shifts, and its first stage captures the source's code, or one the source
held since the last edge where it changed: the window is the model's choice, log 5. -/
def Obligations.ChainsShiftAndCaptureAHeldCode : Prop :=
  ∀ (s : State) (i : Instr), MachineInv s → s.params.sync = .chains → ∃ t, exec i s = .next t ∧
    (i.port = .consumer → s.rrstN = true → ∃ x, x ∈ s.wGray :: s.ws.held ∧
      t.ws.stages = x :: s.ws.stages.dropLast ∧ (s.ws.held = [] → x = s.wGray)) ∧
    (i.port = .producer → s.wrstN = true → ∃ x, x ∈ s.rpGray :: s.rs.held ∧
      t.rs.stages = x :: s.rs.stages.dropLast ∧ (s.rs.held = [] → x = s.rpGray))

/-- R128 (its first sentence), for both chains: a source unchanged for S + 1 edges of the destination clock is in the last
stage. -/
def Obligations.SettledSourceReachesTheView : Prop :=
  ∀ s : State, MachineInv s → s.params.sync = .chains →
    (s.rrstN = true → ∃ t, runEvents (List.replicate (s.params.syncStages + 1) (.rclk false)) s = .next t ∧
      t.ws.lastStage = s.wGray ∧ t.wv = s.wBin ∧ t.wvAbs = s.wAbs) ∧
    (s.wrstN = true → ∃ t, runEvents (List.replicate (s.params.syncStages + 1) (.wclk false)) s = .next t ∧
      t.rs.lastStage = s.rpGray ∧ t.rpv = s.rpBin ∧ t.rpvAbs = s.rpAbs)

/-- R131: in a weakly fair run with no write after some point the read domain's view comes to include every write, and from
then on a LENGTH that is accepted out of alias reports the level-A occupancy; and with no further step of the published
pointer the write domain's view comes to it. -/
def Obligations.FairRunsCatchUp : Prop :=
  ∀ (run : Nat → State) (events : Nat → Event) (start : Nat), FairRun run events → MachineInv (run 0) →
    ((run 0).rrstN = true → (∀ n, start ≤ n → (run n).wAbs = (run start).wAbs) →
      ∃ settled, start ≤ settled ∧ ∀ n, settled ≤ n → (run n).caughtUp ∧
        ((run n).inRange → (run n).pk.active = false →
          ∃ t, exec .length (run n) = .next t ∧ t.rsp = ⟨true, false, 0, (run n).occA, false, true⟩)) ∧
    ((run 0).wrstN = true → (∀ n, start ≤ n → (run n).rpAbs = (run start).rpAbs) →
      ∃ settled, start ≤ settled ∧ ∀ n, settled ≤ n → (run n).rpvAbs = (run n).rpAbs)

/-- R50: outside reset, `W_bin` and the storage change only at a `wclk` edge, `R_bin` and `RP_bin` only at an `rclk`
edge, and each view only at its own agent's step. -/
def Obligations.OnlyTheOwnDomainMovesAPointer : Prop :=
  ∀ s t : State, (nextEvent s).isAgentStep = true → step s = .next t →
    ((∀ b, nextEvent s ≠ .wclk b) → t.wBin = s.wBin ∧ t.wGray = s.wGray ∧ t.storage = s.storage ∧ t.wAbs = s.wAbs) ∧
    ((∀ b, nextEvent s ≠ .rclk b) → t.rBin = s.rBin ∧ t.rpBin = s.rpBin ∧ t.rpGray = s.rpGray ∧ t.pk = s.pk ∧
      t.rsp = s.rsp ∧ t.rAbs = s.rAbs ∧ t.rpAbs = s.rpAbs) ∧
    ((∀ b, nextEvent s ≠ .rclk b) → (∀ k, nextEvent s ≠ .syncW2R k) → t.ws.stages = s.ws.stages) ∧
    ((∀ b, nextEvent s ≠ .wclk b) → (∀ k, nextEvent s ≠ .syncR2W k) → t.rs.stages = s.rs.stages)

/-- R13 ("No hardware rule reads a ghost value"), R34: two states that are the same hardware run a command to states that
are the same hardware. -/
def Obligations.CommandsReadNoGhost : Prop :=
  ∀ (s u : State) (i : Instr), s.eraseGhosts = u.eraseGhosts →
    ∃ t v, exec i s = .next t ∧ exec i u = .next v ∧ t.eraseGhosts = v.eraseGhosts

/-! ### Hazards (70_reset_and_hazards.md) -/

/-- R161 (its sufficient condition): out of alias, a read-domain step leaves `R_abs` within cap - 1 of the view it used,
so a view that then advances by at most `M - cap` is still in range. -/
def Obligations.NormalisationKeepsTheViewInRange : Prop :=
  ∀ (s : State) (i : Instr), MachineInv s → s.rrstN = true → i.port = .consumer → s.inRange →
    ∃ t, exec i s = .next t ∧ s.wvAbs ≤ t.rAbs + (s.params.cap - 1) ∧ t.rAbs ≤ s.wvAbs ∧ t.aliasSeen = s.aliasSeen ∧
      ∀ view, view ≤ s.wvAbs + (s.params.ptrMod - s.params.cap) → view < t.rAbs + s.params.ptrMod

/-- R162 (its last sentence) for overrun, and R161 (its sufficient condition) for alias, which R162 does not name: a
producer that writes only while `w_count ≤ cap - 3` never lets either hazard happen, in any interleaving. The steps include
changes of the reset pins, whose meaning where one reset is asserted alone is the model's choice: the half-asserted reset
(log 12) and the emptied capture windows (log 26). -/
def Obligations.PacedProducerMeetsNoHazard : Prop :=
  ∀ s t : State, PacedInv s → PacedStep s → step s = .next t → PacedInv t

/-- R168: from any state out of reset with no PEEK streaming and no alias, the quiescing events lead to a state in which
both counts are the level-A occupancy, and the level-A state is the one before. -/
def Obligations.QuiescentCountsAgree : Prop :=
  ∀ (s : State) (n : Nat), MachineInv s → s.params.sync = .abstract → s.wrstN = true → s.rrstN = true →
    s.pk.active = false → s.wAbs < s.rAbs + s.params.ptrMod → s.params.ptrMod ≤ n →
    ∃ t, runEvents (quiesce n) s = .next t ∧ t.levelA = s.levelA ∧ t.rpBin = t.rBin ∧ t.rAbs = t.tAbs ∧
      t.effTailAbs = t.tAbs ∧ t.rCount = t.occA ∧ t.wCount = t.occA ∧ t.occA = s.occA

/-! ### Level A (40_reference_operations.md, 10_state.md) -/

/-- R20: the invariants hold before and after every operation, the occupied count is below cap, and head meets tail
exactly when the buffer is empty. -/
def Obligations.LevelAKeepsItsInvariants : Prop :=
  ∀ (a : RefState) (v k : Nat) (vs : List Nat), a.Inv →
    a.occ ≤ a.cap - 1 ∧ (a.head = a.tail ↔ a.occ = 0) ∧ (a.write1 v).Inv ∧ (a.write vs).Inv ∧ (a.deleteOldest k).Inv

/-- R84 laws 1, 2 and 6 (R76, R77): after any writes the buffer holds the last `cap - 1` of what it held and what was
written, in order. -/
def Obligations.WritesKeepTheNewestInOrder : Prop :=
  ∀ (a : RefState) (vs : List Nat), a.Inv →
    let all := a.contents ++ vs.map (fun v => v % 2 ^ a.dataW)
    (a.write vs).contents = all.drop (all.length - (a.cap - 1)) ∧
      (a.write vs).length = min all.length (a.cap - 1)

/-- R79, R84 laws 3 and 4: a delete removes the oldest elements, clamped, and its `head <- tail` changes nothing
(90_conflicts.md C1). -/
def Obligations.DeleteDropsTheOldest : Prop :=
  ∀ (a : RefState) (k : Nat), a.Inv →
    (a.deleteOldest k).contents = a.contents.drop k ∧ (a.deleteOldest k).length = a.length - k ∧
      (a.deleteOldest k).head = a.head ∧ (a.deleteOldest k).storage = a.storage

/-- R78, R80, R81, R82, R84 laws 5 and 6: what the level-A reads return, in terms of the contents. -/
def Obligations.LevelAReadsReturnTheContents : Prop :=
  ∀ (a : RefState) (m i n : Nat), a.Inv →
    a.contents.length = a.length ∧ a.peek m = (a.contents.take m, decide (a.length < m)) ∧
      (i < a.length → a.contents[a.length - 1 - i]? = some (a.getNth n i) ∧
        a.getNthChecked i = .ok (a.getNth n i)) ∧
      (a.length ≤ i → a.getNthChecked i = .outOfRange ∧ a.getNth n i < 2 ^ a.dataW)

/-! ### Level C against level A -/

/-- R43: every consumer edge that accepts no DELETE_OLDEST (PEEK, its beats, LENGTH, both GET_NTH forms, R_NOP), with
whatever view, alias included, leaves the level-A state as it is. -/
def Obligations.ReadsLeaveLevelAUnchanged : Prop :=
  ∀ (s : State) (i : Instr), MachineInv s → s.rrstN = true → i.port = .consumer →
    (∀ k, i ≠ .deleteOldest k) ∨ s.pk.active = true →
    ∃ t, exec i s = .next t ∧ t.levelA = s.levelA ∧ t.occA = s.occA

/-- R132, one command with the view caught up: the first response beat is the level-A one and the level-A state moves as
the operation says. -/
def Obligations.CaughtUpCommandAnswersAsLevelA : Prop :=
  ∀ (s : State) (i : Instr), MachineInv s → s.rrstN = true → s.pk.active = false → s.caughtUp → s.inRange →
    i.port = .consumer → i.wellFormed s.params = true →
    ∃ t e beats, exec i s = .next t ∧ (refCommand i s.levelA).1 = e :: beats ∧ e.shownBy t.rsp = true ∧
      t.levelA = (refCommand i s.levelA).2

/-- R132: every run from reset whose hazard flags are 0 at its end is, response by response, the level-A run built from
it, and ends in the level-A state it stands for. The level-A run is built step by step by `Shadow` (log 21). -/
def Obligations.HazardFreeRunsRefineLevelA : Prop :=
  ∀ (p : Params) (storage : Storage) (wProg rProg : List Nat) (sched : List Event) (draws n : Nat) (t : State)
    (m : Shadow), storage.wf p.dataW p.cap = true → (∀ e ∈ sched, e.isAgentStep = true) →
    shadowRun n (State.afterReset p storage wProg rProg sched draws) (Shadow.start p storage) = some (t, m) →
    t.aliasSeen = false → t.overrunSeen = false →
    m.agrees = true ∧ m.finish = t.levelA

/-! ### The invariant -/

/-- R31, R13 at reset: every instance starts in a state the invariant describes. -/
def Obligations.MachineInvHoldsAtReset : Prop :=
  MachineInv State.reset ∧
    ∀ (p : Params) (storage : Storage) (wProg rProg : List Nat) (sched : List Event) (draws : Nat),
      storage.wf p.dataW p.cap = true → MachineInv (State.afterReset p storage wProg rProg sched draws)

/-- R31, R13, R126: every step of every agent, and every reset, keeps the invariant of the block, in whose states the
register invariants of R31 hold; only a reset asserted alone leaves `MachineInv`, for `HalfReset`. The model's choices, not
R31's: the stages before the last under the abstract synchronizers (log 4), the half-asserted reset `HalfReset` (log 12),
and the capture windows that a reset asserted alone empties (log 26). -/
def Obligations.StepKeepsMachineInv : Prop :=
  ∀ s t : State, BlockInv s → step s = .next t →
    RegisterInv s ∧ BlockInv t ∧ RegisterInv t ∧ (MachineInv s → (∀ w r, nextEvent s ≠ .pins w r) → MachineInv t)
end

