-- ==== Sys2Proof/Laws/Params.lean ====
section
/-! SUPPORT. The legality of an instance's parameters (00_scope.md R6), one fact a lemma. -/

namespace Sys2Proof.Params

variable (p : Params)

theorem one_le_dataW : 1 ≤ p.dataW := p.legal.1
theorem two_le_cap : 2 ≤ p.cap := p.legal.2.1
theorem cap_le_args : p.cap ≤ 2 ^ p.argW := p.legal.2.2.1
theorem ptrMod_mod_cap : p.ptrMod % p.cap = 0 := p.legal.2.2.2.1
theorem ptrMod_even : p.ptrMod % 2 = 0 := p.legal.2.2.2.2.1
theorem two_cap_le_ptrMod : 2 * p.cap ≤ p.ptrMod := p.legal.2.2.2.2.2.1
theorem two_le_syncStages : 2 ≤ p.syncStages := p.legal.2.2.2.2.2.2.1

theorem cap_dvd_ptrMod : p.cap ∣ p.ptrMod := Nat.dvd_of_mod_eq_zero p.ptrMod_mod_cap
theorem cap_pos : 0 < p.cap := Nat.lt_of_lt_of_le Nat.zero_lt_two p.two_le_cap
theorem ptrMod_pos : 0 < p.ptrMod := by have := p.two_le_cap; have := p.two_cap_le_ptrMod; omega

/-- A pointer's slot depends only on its value mod M (42_pointer_generator.md R93: cap divides M). -/
theorem mod_ptrMod_mod_cap (a : Nat) : a % p.ptrMod % p.cap = a % p.cap := Nat.mod_mod_of_dvd a p.cap_dvd_ptrMod

end Sys2Proof.Params
end

