-- ==== Sys2Proof/Laws/Pointer.lean ====
section
/-! SUPPORT. Every pointer_generator result is in range (42_pointer_generator.md, 20_memory.md R37). -/

namespace Sys2Proof.Machine

variable (p : Params)

theorem pgInc_lt (a : Nat) : pgInc p a < p.ptrMod := Nat.mod_lt _ p.ptrMod_pos
theorem pgAdd_lt (a k : Nat) : pgAdd p a k < p.ptrMod := Nat.mod_lt _ p.ptrMod_pos
theorem pgSub_lt (a k : Nat) : pgSub p a k < p.ptrMod := Nat.mod_lt _ p.ptrMod_pos
theorem pgDist_lt (a b : Nat) : pgDist p a b < p.ptrMod := pgSub_lt p a b
theorem pgIdx_lt (a : Nat) : pgIdx p a < p.cap := Nat.mod_lt _ p.cap_pos
theorem pgNthIdx_lt (wv i : Nat) : pgNthIdx p wv i < p.cap := Nat.mod_lt _ p.cap_pos

theorem pgEffTail_lt (r wv : Nat) (h : r < p.ptrMod) : pgEffTail p r wv < p.ptrMod := by
  unfold pgEffTail
  split
  · exact h
  · exact pgSub_lt p _ _

theorem pgStep_lt (rp r : Nat) (h : rp < p.ptrMod) : pgStep p rp r < p.ptrMod := by
  unfold pgStep
  split
  · exact h
  · exact pgInc_lt p _

end Sys2Proof.Machine
end

