-- ==== Sys2Proof/Laws/State.lean ====
section
/-! SUPPORT. One lemma for each field of `State` an update leaves or sets, so that no proof unfolds a record update. -/

namespace Sys2Proof.Machine

section WriteStep

variable (cmd : Option Nat) (s : State)

@[simp] theorem writeStep_params : (writeStep cmd s).params = s.params := rfl
@[simp] theorem writeStep_some_storage (v : Nat) :
    (writeStep (some v) s).storage = s.storage.write s.params.dataW (pgIdx s.params s.wBin) v := rfl
@[simp] theorem writeStep_none_storage : (writeStep none s).storage = s.storage := rfl
@[simp] theorem writeStep_wBin :
    (writeStep cmd s).wBin = (GrayCounter.edge s.params cmd.isSome ⟨s.wBin, s.wGray⟩).bin := rfl
@[simp] theorem writeStep_wGray :
    (writeStep cmd s).wGray = (GrayCounter.edge s.params cmd.isSome ⟨s.wBin, s.wGray⟩).gray := rfl
@[simp] theorem writeStep_rs : (writeStep cmd s).rs = s.rs.capture s.params s.draws s.rpGray s.rpAbs := rfl
@[simp] theorem writeStep_rBin : (writeStep cmd s).rBin = s.rBin := rfl
@[simp] theorem writeStep_rpBin : (writeStep cmd s).rpBin = s.rpBin := rfl
@[simp] theorem writeStep_rpGray : (writeStep cmd s).rpGray = s.rpGray := rfl
@[simp] theorem writeStep_ws :
    (writeStep cmd s).ws = if cmd.isSome then s.ws.sourceMoved s.params s.wGray else s.ws := rfl
@[simp] theorem writeStep_pk : (writeStep cmd s).pk = s.pk := rfl
@[simp] theorem writeStep_rsp : (writeStep cmd s).rsp = s.rsp := rfl
@[simp] theorem writeStep_wrstN : (writeStep cmd s).wrstN = s.wrstN := rfl
@[simp] theorem writeStep_rrstN : (writeStep cmd s).rrstN = s.rrstN := rfl
@[simp] theorem writeStep_resetAlone : (writeStep cmd s).resetAlone = s.resetAlone := rfl
@[simp] theorem writeStep_wAbs : (writeStep cmd s).wAbs = if cmd.isSome then s.wAbs + 1 else s.wAbs := rfl
@[simp] theorem writeStep_rAbs : (writeStep cmd s).rAbs = s.rAbs := rfl
@[simp] theorem writeStep_rpAbs : (writeStep cmd s).rpAbs = s.rpAbs := rfl
@[simp] theorem writeStep_pkBaseAbs : (writeStep cmd s).pkBaseAbs = s.pkBaseAbs := rfl
@[simp] theorem writeStep_aliasSeen : (writeStep cmd s).aliasSeen = s.aliasSeen := rfl
@[simp] theorem writeStep_overrunSeen : (writeStep cmd s).overrunSeen = s.overrunSeen := rfl
@[simp] theorem writeStep_wProg : (writeStep cmd s).wProg = s.wProg := rfl
@[simp] theorem writeStep_rProg : (writeStep cmd s).rProg = s.rProg := rfl
@[simp] theorem writeStep_sched : (writeStep cmd s).sched = s.sched := rfl
@[simp] theorem writeStep_draws : (writeStep cmd s).draws = s.draws + 1 := rfl

end WriteStep

section ReadCommit

variable (e : ReadEffect) (s : State)

@[simp] theorem readCommit_params : (readCommit e s).params = s.params := rfl
@[simp] theorem readCommit_storage : (readCommit e s).storage = s.storage := rfl
@[simp] theorem readCommit_wBin : (readCommit e s).wBin = s.wBin := rfl
@[simp] theorem readCommit_wGray : (readCommit e s).wGray = s.wGray := rfl
@[simp] theorem readCommit_rs :
    (readCommit e s).rs = if s.rpBin ≠ s.rBin then s.rs.sourceMoved s.params s.rpGray else s.rs := by
  simp [readCommit]
@[simp] theorem readCommit_rBin : (readCommit e s).rBin = e.rn := rfl
@[simp] theorem readCommit_rpBin :
    (readCommit e s).rpBin = (GrayCounter.edge s.params (decide (s.rpBin ≠ s.rBin)) ⟨s.rpBin, s.rpGray⟩).bin := rfl
@[simp] theorem readCommit_rpGray :
    (readCommit e s).rpGray = (GrayCounter.edge s.params (decide (s.rpBin ≠ s.rBin)) ⟨s.rpBin, s.rpGray⟩).gray := rfl
@[simp] theorem readCommit_ws : (readCommit e s).ws = s.ws.capture s.params s.draws s.wGray s.wAbs := rfl
@[simp] theorem readCommit_pk : (readCommit e s).pk = e.pk := rfl
@[simp] theorem readCommit_rsp : (readCommit e s).rsp = e.rsp := rfl
@[simp] theorem readCommit_wrstN : (readCommit e s).wrstN = s.wrstN := rfl
@[simp] theorem readCommit_rrstN : (readCommit e s).rrstN = s.rrstN := rfl
@[simp] theorem readCommit_resetAlone : (readCommit e s).resetAlone = s.resetAlone := rfl
@[simp] theorem readCommit_wAbs : (readCommit e s).wAbs = s.wAbs := rfl
@[simp] theorem readCommit_rAbs : (readCommit e s).rAbs = s.rAbs + pgDist s.params e.rn s.rBin := rfl
@[simp] theorem readCommit_rpAbs :
    (readCommit e s).rpAbs = if s.rpBin ≠ s.rBin then s.rpAbs + 1 else s.rpAbs := by
  simp [readCommit]
@[simp] theorem readCommit_pkBaseAbs : (readCommit e s).pkBaseAbs = e.pkBaseAbs := rfl
@[simp] theorem readCommit_aliasSeen :
    (readCommit e s).aliasSeen = (s.aliasSeen || decide (s.rAbs + s.params.ptrMod ≤ s.wvAbs)) := rfl
@[simp] theorem readCommit_overrunSeen : (readCommit e s).overrunSeen = (s.overrunSeen || e.overrun) := rfl
@[simp] theorem readCommit_wProg : (readCommit e s).wProg = s.wProg := rfl
@[simp] theorem readCommit_rProg : (readCommit e s).rProg = s.rProg := rfl
@[simp] theorem readCommit_sched : (readCommit e s).sched = s.sched := rfl
@[simp] theorem readCommit_draws : (readCommit e s).draws = s.draws + 1 := rfl

end ReadCommit

section ResetRegs

variable (w r : Bool) (s : State)

@[simp] theorem resetRegs_params : (resetRegs w r s).params = s.params := rfl
@[simp] theorem resetRegs_storage : (resetRegs w r s).storage = s.storage := rfl
@[simp] theorem resetRegs_wBin : (resetRegs w r s).wBin = 0 := rfl
@[simp] theorem resetRegs_wGray : (resetRegs w r s).wGray = code s.params 0 := rfl
@[simp] theorem resetRegs_rs : (resetRegs w r s).rs = SyncChain.atReset s.params := rfl
@[simp] theorem resetRegs_rBin : (resetRegs w r s).rBin = 0 := rfl
@[simp] theorem resetRegs_rpBin : (resetRegs w r s).rpBin = 0 := rfl
@[simp] theorem resetRegs_rpGray : (resetRegs w r s).rpGray = code s.params 0 := rfl
@[simp] theorem resetRegs_ws : (resetRegs w r s).ws = SyncChain.atReset s.params := rfl
@[simp] theorem resetRegs_pk : (resetRegs w r s).pk = PeekRegs.atReset := rfl
@[simp] theorem resetRegs_rsp : (resetRegs w r s).rsp = Response.none := rfl
@[simp] theorem resetRegs_wrstN : (resetRegs w r s).wrstN = w := rfl
@[simp] theorem resetRegs_rrstN : (resetRegs w r s).rrstN = r := rfl
@[simp] theorem resetRegs_resetAlone : (resetRegs w r s).resetAlone = none := rfl
@[simp] theorem resetRegs_wAbs : (resetRegs w r s).wAbs = 0 := rfl
@[simp] theorem resetRegs_rAbs : (resetRegs w r s).rAbs = 0 := rfl
@[simp] theorem resetRegs_rpAbs : (resetRegs w r s).rpAbs = 0 := rfl
@[simp] theorem resetRegs_pkBaseAbs : (resetRegs w r s).pkBaseAbs = 0 := rfl
@[simp] theorem resetRegs_aliasSeen : (resetRegs w r s).aliasSeen = false := rfl
@[simp] theorem resetRegs_overrunSeen : (resetRegs w r s).overrunSeen = false := rfl
@[simp] theorem resetRegs_wProg : (resetRegs w r s).wProg = s.wProg := rfl
@[simp] theorem resetRegs_rProg : (resetRegs w r s).rProg = s.rProg := rfl
@[simp] theorem resetRegs_sched : (resetRegs w r s).sched = s.sched := rfl
@[simp] theorem resetRegs_draws : (resetRegs w r s).draws = s.draws := rfl

end ResetRegs

section AssertAlone

variable (s : State)

@[simp] theorem assertWriteAlone_params : (assertWriteAlone s).params = s.params := rfl
@[simp] theorem assertWriteAlone_storage : (assertWriteAlone s).storage = s.storage := rfl
@[simp] theorem assertWriteAlone_wBin : (assertWriteAlone s).wBin = 0 := rfl
@[simp] theorem assertWriteAlone_wGray : (assertWriteAlone s).wGray = code s.params 0 := rfl
@[simp] theorem assertWriteAlone_rs : (assertWriteAlone s).rs = SyncChain.atReset s.params := rfl
@[simp] theorem assertWriteAlone_rBin : (assertWriteAlone s).rBin = s.rBin := rfl
@[simp] theorem assertWriteAlone_rpBin : (assertWriteAlone s).rpBin = s.rpBin := rfl
@[simp] theorem assertWriteAlone_rpGray : (assertWriteAlone s).rpGray = s.rpGray := rfl
@[simp] theorem assertWriteAlone_ws : (assertWriteAlone s).ws = s.ws := rfl
@[simp] theorem assertWriteAlone_pk : (assertWriteAlone s).pk = s.pk := rfl
@[simp] theorem assertWriteAlone_rsp : (assertWriteAlone s).rsp = s.rsp := rfl
@[simp] theorem assertWriteAlone_wrstN : (assertWriteAlone s).wrstN = false := rfl
@[simp] theorem assertWriteAlone_rrstN : (assertWriteAlone s).rrstN = true := rfl
@[simp] theorem assertWriteAlone_resetAlone : (assertWriteAlone s).resetAlone = some .producer := rfl
@[simp] theorem assertWriteAlone_wAbs : (assertWriteAlone s).wAbs = s.wAbs := rfl
@[simp] theorem assertWriteAlone_rAbs : (assertWriteAlone s).rAbs = s.rAbs := rfl
@[simp] theorem assertWriteAlone_rpAbs : (assertWriteAlone s).rpAbs = s.rpAbs := rfl
@[simp] theorem assertWriteAlone_pkBaseAbs : (assertWriteAlone s).pkBaseAbs = s.pkBaseAbs := rfl
@[simp] theorem assertWriteAlone_aliasSeen : (assertWriteAlone s).aliasSeen = s.aliasSeen := rfl
@[simp] theorem assertWriteAlone_overrunSeen : (assertWriteAlone s).overrunSeen = s.overrunSeen := rfl
@[simp] theorem assertWriteAlone_wProg : (assertWriteAlone s).wProg = s.wProg := rfl
@[simp] theorem assertWriteAlone_rProg : (assertWriteAlone s).rProg = s.rProg := rfl
@[simp] theorem assertWriteAlone_sched : (assertWriteAlone s).sched = s.sched := rfl
@[simp] theorem assertWriteAlone_draws : (assertWriteAlone s).draws = s.draws := rfl
@[simp] theorem assertReadAlone_params : (assertReadAlone s).params = s.params := rfl
@[simp] theorem assertReadAlone_storage : (assertReadAlone s).storage = s.storage := rfl
@[simp] theorem assertReadAlone_wBin : (assertReadAlone s).wBin = s.wBin := rfl
@[simp] theorem assertReadAlone_wGray : (assertReadAlone s).wGray = s.wGray := rfl
@[simp] theorem assertReadAlone_rs : (assertReadAlone s).rs = s.rs := rfl
@[simp] theorem assertReadAlone_rBin : (assertReadAlone s).rBin = 0 := rfl
@[simp] theorem assertReadAlone_rpBin : (assertReadAlone s).rpBin = 0 := rfl
@[simp] theorem assertReadAlone_rpGray : (assertReadAlone s).rpGray = code s.params 0 := rfl
@[simp] theorem assertReadAlone_ws : (assertReadAlone s).ws = SyncChain.atReset s.params := rfl
@[simp] theorem assertReadAlone_pk : (assertReadAlone s).pk = PeekRegs.atReset := rfl
@[simp] theorem assertReadAlone_rsp : (assertReadAlone s).rsp = Response.none := rfl
@[simp] theorem assertReadAlone_wrstN : (assertReadAlone s).wrstN = true := rfl
@[simp] theorem assertReadAlone_rrstN : (assertReadAlone s).rrstN = false := rfl
@[simp] theorem assertReadAlone_resetAlone : (assertReadAlone s).resetAlone = some .consumer := rfl
@[simp] theorem assertReadAlone_wAbs : (assertReadAlone s).wAbs = s.wAbs := rfl
@[simp] theorem assertReadAlone_rAbs : (assertReadAlone s).rAbs = s.rAbs := rfl
@[simp] theorem assertReadAlone_rpAbs : (assertReadAlone s).rpAbs = s.rpAbs := rfl
@[simp] theorem assertReadAlone_pkBaseAbs : (assertReadAlone s).pkBaseAbs = s.pkBaseAbs := rfl
@[simp] theorem assertReadAlone_aliasSeen : (assertReadAlone s).aliasSeen = s.aliasSeen := rfl
@[simp] theorem assertReadAlone_overrunSeen : (assertReadAlone s).overrunSeen = s.overrunSeen := rfl
@[simp] theorem assertReadAlone_wProg : (assertReadAlone s).wProg = s.wProg := rfl
@[simp] theorem assertReadAlone_rProg : (assertReadAlone s).rProg = s.rProg := rfl
@[simp] theorem assertReadAlone_sched : (assertReadAlone s).sched = s.sched := rfl
@[simp] theorem assertReadAlone_draws : (assertReadAlone s).draws = s.draws := rfl

end AssertAlone

section AfterEvent

variable (s : State)

@[simp] theorem afterEvent_params : (afterEvent s).params = s.params := by unfold afterEvent; split <;> rfl
@[simp] theorem afterEvent_storage : (afterEvent s).storage = s.storage := by unfold afterEvent; split <;> rfl
@[simp] theorem afterEvent_wBin : (afterEvent s).wBin = s.wBin := by unfold afterEvent; split <;> rfl
@[simp] theorem afterEvent_wGray : (afterEvent s).wGray = s.wGray := by unfold afterEvent; split <;> rfl
@[simp] theorem afterEvent_rs : (afterEvent s).rs = s.rs := by unfold afterEvent; split <;> rfl
@[simp] theorem afterEvent_rBin : (afterEvent s).rBin = s.rBin := by unfold afterEvent; split <;> rfl
@[simp] theorem afterEvent_rpBin : (afterEvent s).rpBin = s.rpBin := by unfold afterEvent; split <;> rfl
@[simp] theorem afterEvent_rpGray : (afterEvent s).rpGray = s.rpGray := by unfold afterEvent; split <;> rfl
@[simp] theorem afterEvent_ws : (afterEvent s).ws = s.ws := by unfold afterEvent; split <;> rfl
@[simp] theorem afterEvent_pk : (afterEvent s).pk = s.pk := by unfold afterEvent; split <;> rfl
@[simp] theorem afterEvent_rsp : (afterEvent s).rsp = s.rsp := by unfold afterEvent; split <;> rfl
@[simp] theorem afterEvent_wrstN : (afterEvent s).wrstN = s.wrstN := by unfold afterEvent; split <;> rfl
@[simp] theorem afterEvent_rrstN : (afterEvent s).rrstN = s.rrstN := by unfold afterEvent; split <;> rfl
@[simp] theorem afterEvent_resetAlone : (afterEvent s).resetAlone = s.resetAlone := by
  unfold afterEvent; split <;> rfl
@[simp] theorem afterEvent_wAbs : (afterEvent s).wAbs = s.wAbs := by unfold afterEvent; split <;> rfl
@[simp] theorem afterEvent_rAbs : (afterEvent s).rAbs = s.rAbs := by unfold afterEvent; split <;> rfl
@[simp] theorem afterEvent_rpAbs : (afterEvent s).rpAbs = s.rpAbs := by unfold afterEvent; split <;> rfl
@[simp] theorem afterEvent_pkBaseAbs : (afterEvent s).pkBaseAbs = s.pkBaseAbs := by unfold afterEvent; split <;> rfl
@[simp] theorem afterEvent_aliasSeen : (afterEvent s).aliasSeen = s.aliasSeen := by unfold afterEvent; split <;> rfl
@[simp] theorem afterEvent_overrunSeen : (afterEvent s).overrunSeen = s.overrunSeen := by unfold afterEvent; split <;> rfl
@[simp] theorem afterEvent_wProg : (afterEvent s).wProg = s.wProg := by unfold afterEvent; split <;> rfl
@[simp] theorem afterEvent_rProg : (afterEvent s).rProg = s.rProg := by unfold afterEvent; split <;> rfl

end AfterEvent

end Sys2Proof.Machine
end

