-- ==== Sys2Proof/Laws/Storage.lean ====
section
/-! SUPPORT. The storage: a read after a write, a write leaves the other slots, and a write keeps the canonical form. -/

namespace Sys2Proof.Machine.Storage

theorem find?_insert_same (m : Storage) (slot v : Nat) : (m.insert slot v).find? slot = some v := by
  induction m with
  | nil => simp [insert, find?]
  | cons c rest ih =>
    obtain ⟨k, u⟩ := c
    unfold insert
    split
    · simp [find?]
    · split
      · simp [find?]
      · next h => simp [find?, Ne.symm h, ih]

theorem find?_insert_other (m : Storage) (slot v other : Nat) (h : other ≠ slot) :
    (m.insert slot v).find? other = m.find? other := by
  induction m with
  | nil => simp [insert, find?, h.symm]
  | cons c rest ih =>
    obtain ⟨k, u⟩ := c
    unfold insert
    split
    · simp [find?, h.symm]
    · split
      · next h' => simp [find?, h.symm, ← h']
      · simp [find?, ih]

/-- `MemRead` after `MemWrite` of the same slot gives the DATA_W bits written. -/
theorem read_write_same (dataW : Nat) (m : Storage) (slot v : Nat) :
    (m.write dataW slot v).read dataW slot = lowBits dataW v := by
  simp [write, read, find?_insert_same]

/-- `MemWrite` leaves every other slot as it was. -/
theorem read_write_other (dataW : Nat) (m : Storage) (slot v other : Nat) (h : other ≠ slot) :
    (m.write dataW slot v).read dataW other = m.read dataW other := by
  simp [write, read, find?_insert_other m slot _ other h]

theorem risingFrom_insert (m : Storage) (low slot v : Nat) (hlow : low ≤ slot) (h : m.risingFrom low = true) :
    (m.insert slot v).risingFrom low = true := by
  induction m generalizing low with
  | nil => simp [insert, risingFrom, hlow]
  | cons c rest ih =>
    obtain ⟨k, u⟩ := c
    simp only [risingFrom, Bool.and_eq_true, decide_eq_true_eq] at h
    unfold insert
    split
    · next hk => simp [risingFrom, hlow, h.2, hk]
    · split
      · next hk => subst hk; simp [risingFrom, hlow, h.2]
      · next h1 h2 => simp [risingFrom, h.1, ih (k + 1) (by omega) h.2]

theorem all_insert (m : Storage) (f : Nat × Nat → Bool) (slot v : Nat) (hv : f (slot, v) = true) (h : m.all f = true) :
    (m.insert slot v).all f = true := by
  induction m with
  | nil => simp [insert, hv]
  | cons c rest ih =>
    obtain ⟨k, u⟩ := c
    simp only [List.all_cons, Bool.and_eq_true] at h
    unfold insert
    split
    · simp [hv, h.1, h.2]
    · split
      · simp [hv, h.2]
      · simp only [List.all_cons, h.1, ih h.2, Bool.and_self]

/-- A write of a slot in range keeps the canonical form. -/
theorem wf_write (dataW cap : Nat) (m : Storage) (slot v : Nat) (hs : slot < cap) (h : m.wf dataW cap = true) :
    (m.write dataW slot v).wf dataW cap = true := by
  unfold wf at *
  simp only [Bool.and_eq_true] at *
  refine ⟨risingFrom_insert _ _ _ _ (Nat.zero_le _) h.1, all_insert _ _ _ _ ?_ h.2⟩
  simp [hs, lowBits, Nat.mod_lt _ (Nat.two_pow_pos dataW)]

/-- The storage nothing has written is in canonical form. -/
theorem wf_nil (dataW cap : Nat) : wf dataW cap [] = true := rfl

/-- A read gives an element of DATA_W bits. -/
theorem read_lt (dataW cap : Nat) (m : Storage) (slot : Nat) (h : m.wf dataW cap = true) :
    m.read dataW slot < 2 ^ dataW := by
  unfold wf at h
  simp only [Bool.and_eq_true] at h
  have h2 := h.2
  clear h
  induction m with
  | nil => exact Nat.mod_lt _ (Nat.two_pow_pos dataW)
  | cons c rest ih =>
    obtain ⟨k, u⟩ := c
    simp only [List.all_cons, Bool.and_eq_true, decide_eq_true_eq] at h2
    by_cases hk : k = slot
    · simp [read, find?, hk, h2.1.2]
    · have := ih h2.2
      simpa [read, find?, hk] using this

end Sys2Proof.Machine.Storage
end

