-- ==== Sys2Proof/Laws/Ops.lean ====
section
/-! SUPPORT. One lemma for each shared operation: everything it can do. -/

namespace Sys2Proof.Machine

/-- A chain's ghosts and registers do not move when its source does. -/
@[simp] theorem sourceMoved_stages (p : Params) (old : Nat) (c : SyncChain) :
    (c.sourceMoved p old).stages = c.stages := by unfold SyncChain.sourceMoved; split <;> rfl

@[simp] theorem sourceMoved_abs (p : Params) (old : Nat) (c : SyncChain) :
    (c.sourceMoved p old).abs = c.abs := by unfold SyncChain.sourceMoved; split <;> rfl

/-- Under the abstract synchronizer no edge moves a chain (45_synchronizer.md R129). -/
theorem capture_abstract (p : Params) (h : p.sync = .abstract) (n src srcAbs : Nat) (c : SyncChain) :
    c.capture p n src srcAbs = c := by simp [SyncChain.capture, h]

/-- The first stage captures the present source value or one of those held since the last edge (R125). -/
theorem sampleBack_le (n : Nat) (c : SyncChain) : c.sampleBack n ≤ c.held.length := by
  unfold SyncChain.sampleBack
  split
  · exact Nat.zero_le _
  · exact Nat.lt_succ_iff.1 (Nat.mod_lt _ (Nat.succ_pos _))

/-- A `wclk` edge out of reset touches nothing of the read domain. -/
theorem writeStep_frame (cmd : Option Nat) (s : State) : WriteEdgeFrame s (writeStep cmd s) := by
  constructor <;> first | rfl | (simp only [writeStep_ws]; split <;> simp)

/-- An `rclk` edge out of reset touches nothing of the write domain and does what every edge does. -/
theorem readCommit_frame (e : ReadEffect) (s : State) : ReadEdgeFrame s (readCommit e s) := by
  constructor <;> first | rfl | skip
  · simp only [readCommit_rs]; split <;> simp
  · simp only [readCommit_rs]; split <;> simp
  · by_cases h : s.rpBin = s.rBin <;> simp [GrayCounter.edge, pgStep, h]
  · by_cases h : s.rpBin = s.rBin <;> simp [GrayCounter.edge, pgStep, h]
  · by_cases h : s.rpBin = s.rBin <;> simp [h]

/-- A `wclk` edge: held in reset, one step out of it. -/
theorem writeEdge_cases (cmd : Option Nat) (s : State) :
    (s.wrstN = false ∧ writeEdge cmd s = s) ∨ (s.wrstN = true ∧ writeEdge cmd s = writeStep cmd s) := by
  cases h : s.wrstN <;> simp [writeEdge, h]

/-- An `rclk` edge: held in reset, a beat while a PEEK streams, else the command's effect. -/
theorem readEdge_cases (e : ReadEffect) (s : State) :
    (s.rrstN = false ∧ readEdge e s = s) ∨
      (s.rrstN = true ∧ s.pk.active = true ∧ readEdge e s = readCommit (beatEffect s) s) ∨
      (s.rrstN = true ∧ s.pk.active = false ∧ readEdge e s = readCommit e s) := by
  cases h : s.rrstN <;> cases h2 : s.pk.active <;> simp [readEdge, readStep, h, h2]

end Sys2Proof.Machine
end

