-- ==== Sys2Proof/Laws/Exec.lean ====
section
/-! SUPPORT. What a command and a step can do, said once. -/

namespace Sys2Proof.Machine

/-- The effect a consumer-port command would have where the port accepts it. -/
def commandEffect (s : State) : Instr → ReadEffect
  | .wNop => idleEffect s
  | .write _ => idleEffect s
  | .rNop => idleEffect s
  | .peek a => peekEffect (argOperand s.params a) s
  | .deleteOldest a => deleteEffect (argOperand s.params a) s
  | .length => lengthEffect s
  | .getNth a => getNthEffect (argOperand s.params a) s
  | .getNthChecked a => getNthCheckedEffect (argOperand s.params a) s

/-- The element a producer-port command stores. -/
def commandElement (s : State) : Instr → Option Nat
  | .write v => some (elemOperand s.params v)
  | _ => none

/-- Every command is one edge of its port's clock and always answers a next state (60_exceptions.md R134). -/
theorem exec_eq (i : Instr) (s : State) :
    exec i s = .next (match i.port with
      | .producer => writeEdge (commandElement s i) s
      | .consumer => readEdge (commandEffect s i) s) := by
  cases i <;> rfl

/-- A port with nothing accepted runs a NOP, an accepted command runs, and a word that is no command is refused. -/
theorem fetchW_cases (present : Bool) (s : State) :
    fetchW present s = .idle ∨
      ∃ w rest, present = true ∧ s.wrstN = true ∧ s.wProg = w :: rest ∧
        ((∃ i, decode s.params .producer w = .ok i ∧ fetchW present s = .command i { s with wProg := rest }) ∨
          ∃ e, decode s.params .producer w = .error e ∧ fetchW present s = .refused (refusalOf e)) := by
  unfold fetchW accept
  cases h1 : present && s.wReady with
  | false => simp
  | true =>
    cases h2 : s.wProg with
    | nil => simp
    | cons w rest =>
      simp only [State.wReady, Bool.and_eq_true] at h1
      cases h3 : decode s.params .producer w <;> simp [h1.1, h1.2, h3]

theorem fetchR_cases (present : Bool) (s : State) :
    fetchR present s = .idle ∨
      ∃ w rest, present = true ∧ s.rReady = true ∧ s.rProg = w :: rest ∧
        ((∃ i, decode s.params .consumer w = .ok i ∧ fetchR present s = .command i { s with rProg := rest }) ∨
          ∃ e, decode s.params .consumer w = .error e ∧ fetchR present s = .refused (refusalOf e)) := by
  unfold fetchR accept
  cases h1 : present && s.rReady with
  | false => simp
  | true =>
    cases h2 : s.rProg with
    | nil => simp
    | cons w rest =>
      simp only [Bool.and_eq_true] at h1
      cases h3 : decode s.params .consumer w <;> simp [h1.1, h1.2, h3]

/-- A synchronizer step, inverted (45_synchronizer.md R129). -/
theorem syncW2R_next {target : Option Nat} {s t : State} (h : syncW2R target s = .next t) :
    s.params.sync = .abstract ∧ ((s.rrstN = false ∧ t = s) ∨
      (s.rrstN = true ∧ s.wvAbs ≤ target.getD s.wAbs ∧ target.getD s.wAbs ≤ s.wAbs ∧
        t = { s with ws := s.ws.jump s.params (target.getD s.wAbs) })) := by
  unfold syncW2R at h
  split at h
  · cases h
  · next hs =>
    refine ⟨hs, ?_⟩
    dsimp only at h
    split at h
    · next hr => cases h; exact .inl ⟨hr, rfl⟩
    · next hr =>
      split at h
      · next hk => cases h; exact .inr ⟨by simpa using hr, hk.1, hk.2, rfl⟩
      · cases h

theorem syncR2W_next {target : Option Nat} {s t : State} (h : syncR2W target s = .next t) :
    s.params.sync = .abstract ∧ ((s.wrstN = false ∧ t = s) ∨
      (s.wrstN = true ∧ s.rpvAbs ≤ target.getD s.rpAbs ∧ target.getD s.rpAbs ≤ s.rpAbs ∧
        t = { s with rs := s.rs.jump s.params (target.getD s.rpAbs) })) := by
  unfold syncR2W at h
  split at h
  · cases h
  · next hs =>
    refine ⟨hs, ?_⟩
    dsimp only at h
    split at h
    · next hr => cases h; exact .inl ⟨hr, rfl⟩
    · next hr =>
      split at h
      · next hk => cases h; exact .inr ⟨by simpa using hr, hk.1, hk.2, rfl⟩
      · cases h

/-- The reset pins with no reset half asserted (70_reset_and_hazards.md R156): the levels are always taken. -/
theorem setPinsWhole_cases (w r : Bool) (s : State) :
    ∃ t, setPinsWhole w r s = .next t ∧
      ((t = assertWriteAlone s ∧ s.wrstN = true ∧ w = false ∧ r = true ∧ s.readAtReset = false) ∨
        (t = assertReadAlone s ∧ s.rrstN = true ∧ r = false ∧ w = true ∧ s.writeAtReset = false) ∨
        (t = resetRegs w r s ∧ ((s.wrstN = true ∧ w = false) ∨ (s.rrstN = true ∧ r = false))) ∨
        (t = { s with wrstN := w, rrstN := r } ∧ (s.wrstN = true → w = true) ∧ (s.rrstN = true → r = true))) := by
  unfold setPinsWhole
  dsimp only
  split
  · next h => exact ⟨_, rfl, .inl ⟨rfl, by simpa [and_assoc] using h⟩⟩
  · split
    · next h => exact ⟨_, rfl, .inr (.inl ⟨rfl, by simpa [and_assoc] using h⟩)⟩
    · split
      · next h => exact ⟨_, rfl, .inr (.inr (.inl ⟨rfl, by simpa using h⟩))⟩
      · next h => exact ⟨_, rfl, .inr (.inr (.inr ⟨rfl, by simpa using h⟩))⟩

/-- The reset pins while one reset is asserted alone (R156, R157). -/
theorem setPinsHalf_cases (w r : Bool) (s : State) :
    (w = false ∧ r = false ∧ setPinsHalf w r s = .next (resetRegs false false s)) ∨
      (w = s.wrstN ∧ r = s.rrstN ∧ setPinsHalf w r s = .next s) ∨
      ((w = true ∨ r = true) ∧ ¬ (w = s.wrstN ∧ r = s.rrstN) ∧ setPinsHalf w r s = .refused .partialReset) := by
  unfold setPinsHalf
  split
  · next h => exact .inl ⟨h.1, h.2, rfl⟩
  · next h =>
    split
    · next h2 => exact .inr (.inl ⟨h2.1, h2.2, rfl⟩)
    · next h2 =>
      refine .inr (.inr ⟨?_, h2, rfl⟩)
      cases w <;> cases r <;> simp_all

/-- With no reset half asserted no step is kept from its domain. -/
theorem unlessPartial_whole (port : Port) (s : State) (o : Host.Outcome State Fault Refusal) (h : s.resetAlone = none) :
    unlessPartial port s o = o := by
  cases port <;> simp [unlessPartial, State.runsBesideReset, h]

end Sys2Proof.Machine
end

