-- ==== Sys2Proof/Laws/PerInstr.lean ====
section
/-! SUPPORT. One lemma for each command of a statement about commands as syntax: a well-formed command's opcode and
operand fit the fields of its port's format (30_encoding.md R60 to R63). -/

namespace Sys2Proof.Laws.FieldsFit

/-- The opcode and the operand of a well-formed command fit their fields. -/
def Statement (i : Instr) : Prop :=
  ∀ p : Params, i.wellFormed p = true → opcode i < 2 ^ opWidth i.port ∧ operandField i < 2 ^ fieldWidth p i.port

theorem wNop : Statement .wNop := fun p _ => ⟨by decide, Nat.two_pow_pos p.dataW⟩
theorem write (v : Nat) : Statement (.write v) := fun _ h => ⟨by simp [opcode, opWidth, Instr.port], of_decide_eq_true h⟩
theorem rNop : Statement .rNop := fun p _ => ⟨by decide, Nat.two_pow_pos p.argW⟩
theorem peek (a : Nat) : Statement (.peek a) := fun _ h => ⟨by simp [opcode, opWidth, Instr.port], of_decide_eq_true h⟩
theorem deleteOldest (a : Nat) : Statement (.deleteOldest a) := fun _ h => ⟨by simp [opcode, opWidth, Instr.port], of_decide_eq_true h⟩
theorem length : Statement .length := fun p _ => ⟨by decide, Nat.two_pow_pos p.argW⟩
theorem getNth (a : Nat) : Statement (.getNth a) := fun _ h => ⟨by simp [opcode, opWidth, Instr.port], of_decide_eq_true h⟩
theorem getNthChecked (a : Nat) : Statement (.getNthChecked a) := fun _ h => ⟨by simp [opcode, opWidth, Instr.port], of_decide_eq_true h⟩

end Sys2Proof.Laws.FieldsFit
end

