-- ==== Sys2Proof/Tests/Slice0.lean ====
section
/-! SUPPORT. Tests of one step each, with the expected value from 95_test_vectors.md or a rule's own example, and for
every statement with hypotheses a concrete state and operands that meet them. -/

namespace Sys2Proof.Tests

open Sys2Proof.Machine

/-! ### States the tests run from -/

/-- The state an outcome answers. -/
def got (o : Host.Outcome State Fault Refusal) : Option State :=
  match o with
  | .next s => some s
  | .fault _ => none
  | .refused _ => none

/-- The name an outcome stops under. -/
def stop (o : Host.Outcome State Fault Refusal) : Option Refusal :=
  match o with
  | .next _ => none
  | .fault _ => none
  | .refused r => some r

/-- The command a decoding gives. -/
def command (d : Except DecodeError Instr) : Option Instr :=
  match d with
  | .ok i => some i
  | .error _ => none

/-- The error a decoding gives. -/
def error (d : Except DecodeError Instr) : Option DecodeError :=
  match d with
  | .ok _ => none
  | .error e => some e

/-- CAPACITY 4, M 8 (95_test_vectors.md 2.6 and P3), with either account of the synchronizers. -/
def params4 (sync : SyncModel) : Params where
  dataW := 8
  cap := 4
  ptrMod := 8
  syncStages := 2
  argW := 16
  textSentinel := 0
  textMaxScan := 255
  sync := sync
  legal := by cases sync <;> decide

/-- CAPACITY 11, M 22, DATA_W 32 (95_test_vectors.md P2). -/
def params11 : Params where
  dataW := 32
  cap := 11
  ptrMod := 22
  syncStages := 2
  argW := 16
  textSentinel := 0
  textMaxScan := 255
  sync := .abstract
  legal := by decide

/-- State E of 44_read_port.md: capacity 10, the writes 0 to 14, the view caught up, no read step yet. -/
def stateE : State :=
  { State.reset with
    storage := [(0, 10), (1, 11), (2, 12), (3, 13), (4, 14), (5, 5), (6, 6), (7, 7), (8, 8), (9, 9)]
    wBin := 15
    wGray := 0b11111
    wAbs := 15
    ws := ⟨[0b11111, 0b11111], [15, 15], []⟩ }

/-- Capacity 4 after the writes 0x10, 0x11, 0x12, with the view caught up (95_test_vectors.md X-6 before its PEEK). -/
def state3 : State :=
  { State.afterReset (params4 .abstract) [(0, 0x10), (1, 0x11), (2, 0x12)] [] [] [] 0 with
    wBin := 3
    wGray := 0b010
    wAbs := 3
    ws := ⟨[0b010, 0b010], [3, 3], []⟩ }

/-- The same with the register chains, the third write not yet captured. -/
def chain3 : State :=
  { State.afterReset (params4 .chains) [(0, 0x10), (1, 0x11), (2, 0x12)] [] [] [] 0 with
    wBin := 3
    wGray := 0b010
    wAbs := 3
    ws := ⟨[0b011, 0b001], [2, 1], [0b011]⟩ }

/-- State 3 in the middle of a PEEK of three elements (95_test_vectors.md X-6). -/
def peeking3 : State := { state3 with pk := ⟨true, 0, 3, 1, false⟩, rpBin := 0 }

/-- State 3 with the writer one element ahead of the view (95_test_vectors.md X-8). -/
def ahead4 : State :=
  { state3 with
    storage := [(0, 0x10), (1, 0x11), (2, 0x12), (3, 0x13)]
    wBin := 4
    wGray := 0b110
    wAbs := 4 }

/-- Capacity 4 with one write the view does not include, and with it included. -/
def unseen1 : State :=
  { State.afterReset (params4 .abstract) [(0, 0x10)] [] [] [] 0 with wBin := 1, wGray := 0b001, wAbs := 1 }
def seen1 : State := { unseen1 with ws := unseen1.ws.jump unseen1.params 1 }

/-- Capacity 4 with the view exactly M ahead of the read pointer (95_test_vectors.md X-4). -/
def alias8 : State := { state3 with
  storage := [(0, 0), (1, 1), (2, 2), (3, 3)], wBin := 0, wGray := 0, wAbs := 8, ws := ⟨[0, 0], [8, 8], []⟩ }

/-- State 3 with the first write's word at the head of each port's list and an edge scheduled. -/
def driven3 (e : Event) : State := { state3 with wProg := [0x113], rProg := [0x30000], sched := [e] }

theorem reset_inv : MachineInv State.reset := by
  constructor <;> first | decide | (constructor <;> decide)

theorem stateE_inv : MachineInv stateE := by
  constructor <;> first | decide | (constructor <;> decide)

theorem state3_inv : MachineInv state3 := by
  constructor <;> first | decide | (constructor <;> decide)

theorem chain3_inv : MachineInv chain3 := by
  constructor <;> first | decide | (constructor <;> decide)

theorem peeking3_inv : MachineInv peeking3 := by
  constructor <;> first | decide | (constructor <;> decide)

theorem alias8_inv : MachineInv alias8 := by
  constructor <;> first | decide | (constructor <;> decide)

theorem ahead4_inv : MachineInv ahead4 := by
  constructor <;> first | decide | (constructor <;> decide)

/-! ### Decoding: one word written out from R60, R61, R64, R65 for every command (95_test_vectors.md 2.1) -/

theorem test_decode_wNop : decodeTableWord 16 0b0000000000 = some .wNop := by decide
theorem test_decode_write : decodeTableWord 16 0b0101000001 = some (.write 0x41) := by decide
theorem test_decode_rNop : decodeTableWord 24 0b0000000000000000000 = some .rNop := by decide
theorem test_decode_peek : decodeTableWord 24 0b0010000000000001001 = some (.peek 9) := by decide
theorem test_decode_delete : decodeTableWord 24 0b0101111111111111111 = some (.deleteOldest 65535) := by decide
theorem test_decode_length : decodeTableWord 24 0b0110000000000000000 = some .length := by decide
theorem test_decode_getNth : decodeTableWord 24 0b1000000000000000010 = some (.getNth 2) := by decide
theorem test_decode_getNthChecked : decodeTableWord 24 0b1010000000000000011 = some (.getNthChecked 3) := by decide
theorem test_decode_reserved : error (decode Params.default .producer 0x205) = some (.reservedOpcode .producer 2) ∧
    error (decode Params.default .consumer 0x70000) = some (.reservedOpcode .consumer 7) := by decide
theorem test_decode_too_wide : error (decode Params.default .producer 0x400) = some (.wordTooWide .producer 0x400) := by
  decide
/-- 95_test_vectors.md P2: DATA_W = 32, `W.WRITE 7`. -/
theorem test_decode_wide_element : command (decode params11 .producer 0x100000007) = some (.write 7) := by decide

/-! ### Well-formedness: each check refuses its ill-formed term -/

theorem test_illformed_write : (Instr.write 256).wellFormed Params.default = false := by decide
theorem test_illformed_peek : (Instr.peek 65536).wellFormed Params.default = false := by decide
theorem test_illformed_delete : (Instr.deleteOldest 65536).wellFormed Params.default = false := by decide
theorem test_illformed_getNth : (Instr.getNth 65536).wellFormed Params.default = false := by decide
theorem test_illformed_getNthChecked : (Instr.getNthChecked 65536).wellFormed Params.default = false := by decide
/-- 95_test_vectors.md RS-6, RS-7: CAPACITY 1, and PTR_MOD 15 for CAPACITY 10. -/
theorem test_illegal_parameters : ¬ RawParams.Legal ⟨8, 1, 2, 2, 16, 0, 255, .abstract⟩ ∧
    ¬ RawParams.Legal ⟨8, 10, 15, 2, 16, 0, 255, .abstract⟩ := by decide

/-! ### Sub-blocks (95_test_vectors.md 2.2, 2.3) -/

theorem test_gray_codes : code Params.default 0 = 0b00101 ∧ code Params.default 14 = 0b11110 ∧
    code Params.default 19 = 0b10101 ∧ code params11 21 = 0b10111 := by decide
theorem test_gray_decode : decodeCode Params.default .consumer 0 0b11111 = 15 := by decide
theorem test_gray_invalid : validCode Params.default 0b00110 = false ∧ validCode Params.default 0b10111 = false := by
  decide
theorem test_pg : pgSub Params.default 3 9 = 14 ∧ pgEffTail Params.default 0 15 = 6 ∧ pgEffTail Params.default 16 3 = 16 ∧
    pgCount Params.default 16 3 = 7 ∧ pgWcount Params.default 3 19 = 4 ∧ pgNthIdx Params.default 15 12 = 2 ∧
    pgStep Params.default 19 2 = 0 := by decide

/-! ### One step of each command (95_test_vectors.md 2.5) -/

/-- C-W0. -/
theorem test_wNop : (got (exec .wNop State.reset)).map (fun s => (s.wBin, s.wGray, s.storage)) =
    some (0, 0b00101, []) := by decide
/-- C-W1. -/
theorem test_write : (got (exec (.write 0x0E) State.reset)).map (fun s => (s.storage, s.wBin, s.wGray, s.wCount)) =
    some ([(0, 0x0E)], 1, 0b00100, 1) := by decide
/-- C-W3 (from state E the slot of `W_bin = 15` is 5): the write is accepted at capacity. -/
theorem test_write_evicts : (got (exec (.write 0xAA) stateE)).map
    (fun s => (s.storage.find? 5, s.wBin, s.wAtCapacity, s.levelA.tail)) = some (some 0xAA, 16, true, 7) := by decide
/-- C-NOP. -/
theorem test_rNop : (got (exec .rNop stateE)).map (fun s => (s.rBin, s.rpBin, s.rsp)) =
    some (6, 0, Response.none) := by decide
/-- C-P2, beat 0. -/
theorem test_peek_truncated : (got (exec (.peek 12) stateE)).map (fun s => (s.rsp, s.pk.active, s.rReady)) =
    some (⟨true, true, 6, 9, true, false⟩, true, false) := by decide
/-- C-P6. -/
theorem test_peek_empty : (got (exec (.peek 3) State.reset)).map (fun s => (s.rsp, s.pk.active)) =
    some (⟨true, false, 0, 0, true, true⟩, false) := by decide
/-- X-6 without the later writes: beat 1 of a PEEK of three. -/
theorem test_peek_beat : (got (exec (.deleteOldest 3) peeking3)).map (fun s => (s.rsp, s.pk.j, s.rBin)) =
    some (⟨true, true, 0x11, 3, false, false⟩, 2, 0) := by decide
/-- C-D1. -/
theorem test_delete : (got (exec (.deleteOldest 4) stateE)).map (fun s => (s.rBin, s.rCount, s.rsp.valid)) =
    some (10, 5, false) := by decide
/-- C-D2. -/
theorem test_delete_clamped : (got (exec (.deleteOldest 100) stateE)).map (fun s => (s.rBin, s.rEmpty, s.wBin)) =
    some (15, true, 15) := by decide
/-- C-L1. -/
theorem test_length : (got (exec .length stateE)).map (·.rsp) = some ⟨true, false, 0, 9, false, true⟩ := by decide
/-- C-N1. -/
theorem test_getNth : (got (exec (.getNth 0) stateE)).map (·.rsp) = some ⟨true, true, 0x0E, 0, false, true⟩ := by decide
/-- C-N3: the data is a draw, the rest is fixed. -/
theorem test_getNth_out : (got (exec (.getNth 9) stateE)).map (fun s => (s.rsp.valid, s.rsp.hasData, s.rsp.flag)) =
    some (true, true, false) := by decide
/-- C-K1. -/
theorem test_getNthChecked : (got (exec (.getNthChecked 8) stateE)).map (·.rsp) =
    some ⟨true, true, 6, 0, false, true⟩ := by decide
/-- C-K2. -/
theorem test_getNthChecked_out : (got (exec (.getNthChecked 9) stateE)).map (·.rsp) =
    some ⟨true, false, 0, 0, true, true⟩ := by decide

/-! ### Hazards, crossing, reset (95_test_vectors.md 2.6, 2.7) -/

/-- X-8 and X-9: the race sets the ghost flag, one position further it does not. -/
theorem test_overrun : (got (exec (.getNth 2) ahead4)).map (·.overrunSeen) = some true ∧
    (got (exec (.getNth 1) ahead4)).map (fun s => (s.rsp.data, s.overrunSeen)) = some (0x11, false) := by decide
/-- X-4: a view exactly M ahead looks empty and sets the ghost flag. -/
theorem test_alias : (got (exec .length alias8)).map (fun s => (s.rsp.len, s.aliasSeen)) = some (0, true) := by decide
/-- X-1: a partial catch-up. -/
theorem test_sync : (got (eventStep (.syncW2R (some 1)) { state3 with ws := SyncChain.atReset state3.params })).map
    (fun s => (s.wvAbs, s.rCount)) = some (1, 1) := by decide
/-- X-11: a stable source shifts through the chain. -/
theorem test_chain_shift : (got (exec .rNop { chain3 with ws := ⟨[0b011, 0b001], [2, 1], []⟩ })).map (·.ws.stages) =
    some [0b010, 0b011] := by decide
/-- RS-4: a reset of the whole block keeps the storage. -/
theorem test_reset : (got (eventStep .reset stateE)).map (fun s => (s.storage, s.wBin, s.rCount)) =
    some (stateE.storage, 0, 0) := by decide
/-- State 3 read to its end, with the write domain's reset asserted alone (70_reset_and_hazards.md R156). -/
def halfReset3 : State := assertWriteAlone { state3 with rBin := 3, rAbs := 3 }

theorem halfReset3_inv : HalfReset halfReset3 := by
  constructor <;> first | decide | (constructor <;> decide)

/-- RS-5: the read domain goes on while the write domain alone is in reset. -/
theorem test_partial_reset : stop (eventStep (.rclk false) halfReset3) = some .partialReset ∧
    stop (eventStep (.pins true true) halfReset3) = some .partialReset := by decide
/-- R156: the other reset asserted after the first resets the block. -/
theorem test_reset_in_order : (got (eventStep (.pins false true) { state3 with rBin := 3, rAbs := 3 })).map
    (fun s => (s.wBin, s.rBin, s.wAbs)) = some (0, 3, 3) ∧
    (got (eventStep (.pins false false) halfReset3)).map (fun s => (s.wBin, s.rBin, s.wAbs, s.rrstN)) =
      some (0, 0, 0, false) := by decide
/-- 95_test_vectors.md A-T1 and A-T4. -/
theorem test_text : scanText 0 255 [0x41, 0x42, 0] = some 2 ∧ scanText 0 5 [0x41, 0x42] = none := by decide
/-- A-W3 and A-D2 at level A. -/
theorem test_levelA : let a := (RefState.mk 4 8 [] 0 0).write [0, 1, 2, 3, 4, 5, 6, 7, 8, 9]
    (a.head, a.tail, a.contents) = (2, 3, [7, 8, 9]) ∧ (a.deleteOldest 100).head = 2 := by decide
/-- R69, R71: a line of text with a comment. -/
theorem test_assembler : (match readLine ['R', '.', 'P', 'E', 'E', 'K', ' ', '0', 'x', '9', ' ', ';', 'x'] with
    | .ok (some l) => some l
    | _ => none) = some (AsmLine.rPeek 9) := by decide

/-! ### The first step after reset runs a placed word -/

theorem test_fetch_write : (got (step (State.reset.withFetchWord 16 0x141))).map (·.storage) = some [(0, 0x41)] := by
  decide
theorem test_fetch_length : (got (step (State.reset.withFetchWord 24 0x30000))).map (·.rsp) =
    some ⟨true, false, 0, 0, false, true⟩ := by decide

/-! ### Witnesses: concrete states and operands that meet every statement's hypotheses -/

theorem witness_DecodeOfEncodeIsTheCommand : (Instr.write 255).wellFormed Params.default = true ∧
    (Instr.peek 65535).wellFormed Params.default = true ∧ Instr.length.wellFormed Params.default = true := by decide
theorem witness_DecodedWordHasTheCommandsFields : decode Params.default .producer 0x1FF = .ok (.write 255) ∧
    decode Params.default .consumer 0x31234 = .ok .length := ⟨rfl, rfl⟩
theorem witness_ReservedOpcodesAreRefused : (255 < 2 ^ fieldWidth Params.default .producer) ∧
    65535 < 2 ^ fieldWidth Params.default .consumer := by decide
theorem witness_IgnoredFieldsDoNotMatter : 255 < 2 ^ Params.default.dataW ∧ 65535 < 2 ^ Params.default.argW := by decide
theorem witness_AssemblerRejectsWhatDoesNotFit : 255 < 2 ^ Params.default.dataW ∧ 2 ^ Params.default.dataW ≤ 256 ∧
    65535 < 2 ^ Params.default.argW ∧ 2 ^ Params.default.argW ≤ 65536 := by decide
theorem witness_StepRunsTheFetchedCommand_accepts :
    (nextEvent (driven3 (.wclk true)) = .wclk true ∧ (driven3 (.wclk true)).wrstN = true ∧
      (driven3 (.wclk true)).wProg = [0x113]) ∧ decode state3.params .producer 0x113 = .ok (.write 0x13) ∧
    (nextEvent (driven3 (.rclk true)) = .rclk true ∧ (driven3 (.rclk true)).rrstN = true ∧
      (driven3 (.rclk true)).pk.active = false ∧ (driven3 (.rclk true)).rProg = [0x30000]) ∧
    decode state3.params .consumer 0x30000 = .ok .length := ⟨by decide, rfl, by decide, rfl⟩
theorem witness_StepRunsTheFetchedCommand_idle :
    nextEvent (driven3 (.wclk false)) = .wclk false ∧ nextEvent (driven3 (.rclk false)) = .rclk false ∧
    (nextEvent { peeking3 with sched := [.rclk true] } = .rclk true ∧ peeking3.pk.active = true) ∧
    (nextEvent { state3 with sched := [.wclk true] } = .wclk true ∧ state3.wProg = []) := by decide
theorem witness_PlacedWordRunsNext : State.reset.params = Params.default ∧
    decodeTableWord 16 0x1FF = some (.write 255) ∧ decodeTableWord 24 0x4FFFF = some (.getNth 65535) := by decide
theorem witness_AcceptedReservedWordStops : (nextEvent { driven3 (.wclk true) with wProg := [0x205] } = .wclk true) ∧
    decode state3.params .producer 0x205 = .error (.reservedOpcode .producer 2) ∧
    (nextEvent { driven3 (.rclk true) with rProg := [0x70000] } = .rclk true ∧ state3.pk.active = false) ∧
    decode state3.params .consumer 0x70000 = .error (.reservedOpcode .consumer 7) := ⟨by decide, rfl, by decide, rfl⟩
/-- Each way to stop: the producer's word, the consumer's, both synchronizer refusals, and the half-asserted resets. -/
theorem witness_StepStopsOnlyForItsNamedReasons : MachineInv { driven3 (.syncW2R (some 4)) with wProg := [0x205] } ∧
    stop (step (driven3 (.syncW2R (some 4)))) = some (.syncOutOfRange 4) ∧
    stop (step { driven3 (.wclk true) with wProg := [0x205] }) = some (.reservedOpcode .producer 2) ∧
    stop (step { chain3 with sched := [.syncR2W none] }) = some .noSyncStep ∧ HalfReset halfReset3 ∧
    stop (step { halfReset3 with sched := [.syncW2R none] }) = some .partialReset :=
  ⟨by constructor <;> first | decide | (constructor <;> decide), by decide, by decide, by decide, halfReset3_inv, by decide⟩
theorem witness_UngrayInvertsGray : 31 < 2 ^ (4 + 1) ∧ 31 < 2 ^ 5 := by decide
theorem witness_PointerCodesDecode : 19 < Params.default.ptrMod ∧ validCode Params.default 0b10101 = true := by decide
theorem witness_CounterEdgeChangesAtMostOneBit : 19 < Params.default.ptrMod := by decide
theorem witness_IncAddSubHaveTheirHardwareForms : 19 < Params.default.ptrMod ∧ 0 < Params.default.ptrMod := by decide
theorem witness_CountIsTheClampedDistance : 16 < Params.default.ptrMod ∧ 3 < Params.default.ptrMod ∧
    pgDist Params.default 3 16 < Params.default.cap ∧ Params.default.ptrMod = 20 ∧ Params.default.cap = 10 := by decide
theorem witness_NthSlotIsTheDocumentsFormula : 15 < Params.default.ptrMod ∧ 8 < Params.default.cap - 1 ∧
    9 < Params.default.cap ∧ params11.cap = 11 := by decide
theorem witness_PublishedPointerComesOneStepNearer : 19 < Params.default.ptrMod ∧ 2 < Params.default.ptrMod ∧
    (19 : Nat) ≠ 2 := by decide
theorem witness_ArithmeticInRangeStandsForAbsoluteCounts : 6 ≤ 25 ∧ 25 - 6 < Params.default.ptrMod ∧ 6 ≤ 20 ∧ 20 ≤ 25 := by
  decide
theorem witness_ImplicitEvictionGivesTheLevelATail :
    Counts.run 4 [.write 0, .write 1, .write 2, .write 3, .deleteOldest 1] ⟨0, 0, 0⟩ = ⟨4, 2, 2⟩ := by decide
theorem witness_IllegalParametersHaveNoInstance : ¬ RawParams.Legal ⟨8, 10, 15, 2, 16, 0, 255, .abstract⟩ ∧
    (RawParams.mk 8 1 2 2 16 0 255 .abstract).cap < 2 ∧ RawParams.Legal ⟨8, 2, 4, 2, 1, 0, 255, .chains⟩ := by decide
theorem witness_NothingIsAcceptedDuringReset :
    (nextEvent { driven3 (.wclk true) with wrstN := false } = .wclk true) ∧
    (nextEvent { driven3 (.rclk true) with rrstN := false } = .rclk true) := by decide
theorem witness_WholeResetAssertsEitherPinFirst : stateE.resetAlone = none ∧ stateE.wrstN = true ∧ stateE.rrstN = true ∧
    stateE.writeAtReset = false ∧ stateE.readAtReset = false ∧ State.reset.readAtReset = true ∧
    State.reset.writeAtReset = true := by decide
theorem witness_WNopOnlyShiftsTheChain : stateE.wrstN = true := by decide
theorem witness_WriteStoresAtTheHeadAndAdvances : stateE.wrstN = true ∧ 0 ≠ pgIdx stateE.params stateE.wBin := by decide
theorem witness_WriteIsLevelAWrite : MachineInv stateE ∧ stateE.wrstN = true := ⟨stateE_inv, by decide⟩
theorem witness_WriteSequenceIsLevelAWrite : MachineInv stateE ∧ stateE.wrstN = true ∧
    ∀ v ∈ [0, 255], v < 2 ^ stateE.params.dataW := ⟨stateE_inv, by decide, by decide⟩
theorem witness_TextExpandsUpToTheSentinel : (RefState.mk 4 8 [] 0 0).dataW = Params.default.dataW ∧
    Params.default.dataW = 8 ∧ (RefState.mk 4 32 [] 0 0).dataW = params11.dataW ∧ params11.dataW ≠ 8 := by decide
theorem witness_WriteCountIsConservative : MachineInv stateE ∧ stateE.wrstN = true ∧ stateE.estimateInRange :=
  ⟨stateE_inv, by decide, by decide⟩
/-- R117, R118, R120 to R123: a ready port, and arguments at and beyond the count. -/
theorem witness_readCommands : stateE.rrstN = true ∧ stateE.pk.active = false ∧ stateE.cnt = 9 ∧
    65535 < 2 ^ stateE.params.argW ∧ min stateE.cnt 1 = 1 ∧ 2 ≤ min stateE.cnt 2 ∧ min stateE.cnt 0 = 0 ∧ 8 < stateE.cnt ∧
    pgIdx stateE.params stateE.effTail ≠ pgIdx stateE.params stateE.wBin ∧
    pgIdx stateE.params (pgSub stateE.params stateE.wv 9) ≠ pgIdx stateE.params stateE.wBin := by decide
/-- R114: the same with the slot raced, for the first PEEK beat and for GET_NTH. -/
theorem witness_readCommands_race : ahead4.rrstN = true ∧ ahead4.pk.active = false ∧ 2 < ahead4.cnt ∧
    pgIdx ahead4.params ahead4.effTail = pgIdx ahead4.params ahead4.wBin ∧
    pgIdx ahead4.params (pgSub ahead4.params ahead4.wv 3) = pgIdx ahead4.params ahead4.wBin := by decide
theorem witness_StreamingPeekTakesTheEdge : (Instr.peek 2).port = .consumer ∧ peeking3.rrstN = true ∧
    peeking3.pk.active = true ∧ peeking3.pk.j + 1 ≠ peeking3.pk.n ∧
    pgIdx peeking3.params (pgAdd peeking3.params peeking3.pk.base peeking3.pk.j) ≠ pgIdx peeking3.params peeking3.wBin := by
  decide
theorem witness_DeleteAllEmptiesTheView : MachineInv stateE ∧ stateE.rrstN = true ∧ stateE.pk.active = false ∧
    stateE.params.sync = .abstract := ⟨stateE_inv, by decide⟩
theorem witness_ReadCountIsAtMostTheOccupancy : MachineInv stateE ∧ stateE.rrstN = true ∧ stateE.inRange ∧
    stateE.caughtUp := ⟨stateE_inv, by decide⟩
theorem witness_PeekStreamsTheOldestElements : MachineInv stateE ∧ stateE.rrstN = true ∧ stateE.pk.active = false ∧
    stateE.inRange ∧ stateE.wAbs < stateE.effTailAbs + stateE.params.cap ∧ 12 < 2 ^ stateE.params.argW ∧
    8 < min stateE.cnt 12 := ⟨stateE_inv, by decide⟩
theorem witness_UnreachedElementsAreReadExactly : MachineInv ahead4 ∧ 1 < ahead4.wAbs ∧
    ahead4.wAbs < 1 + ahead4.params.cap ∧ ahead4.wAbs = 0 + ahead4.params.cap := ⟨ahead4_inv, by decide⟩
theorem witness_ViewsAreEarlierSourceValues : MachineInv ahead4 ∧ MachineInv chain3 := ⟨ahead4_inv, chain3_inv⟩
theorem driven3_inv : MachineInv (driven3 (.wclk true)) ∧ MachineInv (driven3 (.syncW2R none)) := by
  constructor <;> constructor <;> first | decide | (constructor <;> decide)
theorem witness_ViewsNeverGoBack : MachineInv (driven3 (.wclk true)) ∧
    (nextEvent (driven3 (.wclk true))).isAgentStep = true ∧
    step (driven3 (.wclk true)) = .next (writeEdge (some 0x13) { driven3 (.wclk true) with wProg := [], sched := [] }) :=
  ⟨driven3_inv.1, by decide, rfl⟩
theorem witness_SyncStepMovesOnlyItsView : MachineInv ahead4 ∧ ahead4.params.sync = .abstract ∧ ahead4.rrstN = true ∧
    ahead4.wvAbs ≤ 3 ∧ ahead4.wvAbs ≤ 4 ∧ 4 ≤ ahead4.wAbs ∧ ahead4.wrstN = true ∧ ahead4.rpvAbs ≤ 0 ∧ 0 ≤ ahead4.rpAbs ∧
    2 < ahead4.wvAbs ∧ ahead4.wAbs < 5 ∧ ahead4.rpAbs < 1 := ⟨ahead4_inv, by decide⟩
theorem witness_ChainsShiftAndCaptureAHeldCode : MachineInv chain3 ∧ chain3.params.sync = .chains ∧
    chain3.rrstN = true ∧ chain3.wrstN = true ∧ chain3.ws.held ≠ [] ∧ chain3.rs.held = [] := ⟨chain3_inv, by decide⟩
theorem witness_SettledSourceReachesTheView : MachineInv chain3 ∧ chain3.params.sync = .chains ∧ chain3.rrstN = true ∧
    chain3.wrstN = true := ⟨chain3_inv, by decide⟩
/-- A weakly fair run in rounds of the four agents: the first SyncW2R brings the one write the view lacks, and from then on
nothing but the draw counter moves. -/
def fairEvent (n : Nat) : Event :=
  match n % 4 with
  | 0 => .wclk false
  | 1 => .rclk false
  | 2 => .syncW2R none
  | _ => .syncR2W none

/-- The state before event `n` of the run. -/
def fairState (n : Nat) : State :=
  { (if n < 3 then unseen1 else seen1) with draws := 2 * (n / 4) + min (n % 4) 2 }

theorem seen1_view (d : Nat) : State.wv { seen1 with draws := d } = 1 := by
  show decodeCode (params4 .abstract) .consumer d (code (params4 .abstract) 1) = 1
  rw [decodeCode, if_pos (by decide)]; decide
theorem fair_rclk (d : Nat) : eventStep (.rclk false) { seen1 with draws := d } = .next { seen1 with draws := d + 1 } := by
  have h : idleEffect { seen1 with draws := d } = ⟨0, Response.none, PeekRegs.atReset, 0, false⟩ := by
    have h0 : pgEffTail (params4 .abstract) 0 1 = 0 := by decide
    rw [idleEffect, State.effTail, seen1_view]
    exact congrArg (ReadEffect.mk · Response.none PeekRegs.atReset 0 false) h0
  have h1 : pgDist (params4 .abstract) 0 0 = 0 := by decide
  have h2 : decide (seen1.rAbs + seen1.params.ptrMod ≤ seen1.wvAbs) = false := by decide
  show Host.Outcome.next (readCommit (idleEffect { seen1 with draws := d }) { seen1 with draws := d }) = _
  rw [h]
  show Host.Outcome.next { seen1 with
    rAbs := 0 + pgDist (params4 .abstract) 0 0
    aliasSeen := false || decide (seen1.rAbs + seen1.params.ptrMod ≤ seen1.wvAbs)
    draws := d + 1 } = _
  rw [h1, h2]; rfl
theorem fair_wclk (d : Nat) : eventStep (.wclk false) { seen1 with draws := d } = .next { seen1 with draws := d + 1 } := rfl
theorem fair_syncW2R (d : Nat) : eventStep (.syncW2R none) { seen1 with draws := d } = .next { seen1 with draws := d } :=
  if_pos (e := .refused (.syncOutOfRange 1)) (show seen1.wvAbs ≤ seen1.wAbs ∧ seen1.wAbs ≤ seen1.wAbs by decide)
theorem fair_syncR2W (d : Nat) : eventStep (.syncR2W none) { seen1 with draws := d } = .next { seen1 with draws := d } :=
  if_pos (e := .refused (.syncOutOfRange 0)) (show seen1.rpvAbs ≤ seen1.rpAbs ∧ seen1.rpAbs ≤ seen1.rpAbs by decide)

theorem fairState_late (n : Nat) (h : 3 ≤ n) : fairState n = { seen1 with draws := 2 * (n / 4) + min (n % 4) 2 } := by
  rw [fairState, if_neg (by omega)]

theorem fair_steps (n : Nat) : eventStep (fairEvent n) (fairState n) = .next (fairState (n + 1)) := by
  by_cases h : n < 3
  · have : n = 0 ∨ n = 1 ∨ n = 2 := by omega
    rcases this with rfl | rfl | rfl <;> rfl
  · rw [fairState_late n (by omega), fairState_late (n + 1) (by omega)]
    have hr : n % 4 = 0 ∨ n % 4 = 1 ∨ n % 4 = 2 ∨ n % 4 = 3 := by omega
    rcases hr with hr | hr | hr | hr
    · rw [show (n + 1) / 4 = n / 4 by omega, show (n + 1) % 4 = 1 by omega, fairEvent, hr]
      exact fair_wclk _
    · rw [show (n + 1) / 4 = n / 4 by omega, show (n + 1) % 4 = 2 by omega, fairEvent, hr]
      exact fair_rclk _
    · rw [show (n + 1) / 4 = n / 4 by omega, show (n + 1) % 4 = 3 by omega, fairEvent, hr]
      exact fair_syncW2R _
    · rw [show (n + 1) / 4 = n / 4 + 1 by omega, show (n + 1) % 4 = 0 by omega, fairEvent, hr]
      exact fair_syncR2W _

theorem fair_run : FairRun fairState fairEvent where
  steps := fair_steps
  agents n := by unfold fairEvent; split <;> rfl
  writeDomain n := ⟨4 * n, by omega, false, by rw [fairEvent, show 4 * n % 4 = 0 by omega]; rfl⟩
  readDomain n := ⟨4 * n + 1, by omega, false, by rw [fairEvent, show (4 * n + 1) % 4 = 1 by omega]; rfl⟩
  syncW2R n := ⟨n + 3, by omega, .inl fun h => by
    rw [fairState_late _ (by omega)] at h; exact absurd h.2.2 (by decide : ¬ seen1.wvAbs < seen1.wAbs)⟩
  syncR2W n := ⟨n + 3, by omega, .inl fun h => by
    rw [fairState_late _ (by omega)] at h; exact absurd h.2.2 (by decide : ¬ seen1.rpvAbs < seen1.rpAbs)⟩

theorem witness_FairRunsCatchUp : FairRun fairState fairEvent ∧ MachineInv (fairState 0) ∧
    (fairState 0).canMoveW2R ∧ (fairState 0).rrstN = true ∧ (fairState 0).wrstN = true ∧
    (∀ n, 3 ≤ n → (fairState n).wAbs = (fairState 3).wAbs ∧ (fairState n).rpAbs = (fairState 3).rpAbs) ∧
    (fairState 3).inRange ∧ (fairState 3).pk.active = false :=
  ⟨fair_run, by constructor <;> first | decide | (constructor <;> decide), by decide, by decide, by decide,
    fun n h => by rw [fairState_late n h]; exact ⟨rfl, rfl⟩, by decide⟩

theorem witness_OnlyTheOwnDomainMovesAPointer : (nextEvent (driven3 (.syncW2R none))).isAgentStep = true ∧
    (got (step (driven3 (.syncW2R none)))).isSome = true ∧ (∀ b, nextEvent (driven3 (.syncW2R none)) ≠ .wclk b) ∧
    (∀ b, nextEvent (driven3 (.syncW2R none)) ≠ .rclk b) := by decide
theorem witness_CommandsReadNoGhost : state3.eraseGhosts = { state3 with wAbs := 7, aliasSeen := true }.eraseGhosts ∧
    state3 ≠ { state3 with wAbs := 7, aliasSeen := true } := by decide
theorem witness_NormalisationKeepsTheViewInRange : MachineInv stateE ∧ stateE.rrstN = true ∧
    (Instr.deleteOldest 3).port = .consumer ∧ stateE.inRange ∧
    25 ≤ stateE.wvAbs + (stateE.params.ptrMod - stateE.params.cap) := ⟨stateE_inv, by decide⟩
theorem witness_PacedProducerMeetsNoHazard :
    PacedInv (State.reset.withFetchWord 16 0x141) ∧ PacedStep (State.reset.withFetchWord 16 0x141) ∧
      (got (step (State.reset.withFetchWord 16 0x141))).isSome = true := by
  refine ⟨⟨.inl ⟨?_, by decide, by decide⟩, by decide, by decide⟩, fun _ _ _ _ => by decide, by decide⟩
  constructor <;> first | decide | (constructor <;> decide)
theorem witness_QuiescentCountsAgree : MachineInv stateE ∧ stateE.params.sync = .abstract ∧ stateE.wrstN = true ∧
    stateE.rrstN = true ∧ stateE.pk.active = false ∧ stateE.wAbs < stateE.rAbs + stateE.params.ptrMod ∧
    stateE.params.ptrMod ≤ 20 := ⟨stateE_inv, by decide⟩
/-- R20, R76 to R82: the level-A state of scenario L1-1. -/
theorem witness_levelA : stateE.levelA.Inv ∧ stateE.levelA.length = 9 ∧ 8 < stateE.levelA.length := by decide
/-- A read in range, one in alias, and a DELETE_OLDEST presented while a PEEK streams. -/
theorem witness_ReadsLeaveLevelAUnchanged : MachineInv ahead4 ∧ MachineInv alias8 ∧ ¬ alias8.inRange ∧
    alias8.rrstN = true ∧ (Instr.getNth 1).port = .consumer ∧ Instr.getNth 1 ≠ .deleteOldest 1 ∧ MachineInv peeking3 ∧
    peeking3.rrstN = true ∧ peeking3.pk.active = true := ⟨ahead4_inv, alias8_inv, by decide, by decide, by decide, by decide,
  peeking3_inv, by decide⟩
theorem witness_CaughtUpCommandAnswersAsLevelA : MachineInv stateE ∧ stateE.rrstN = true ∧ stateE.pk.active = false ∧
    stateE.caughtUp ∧ stateE.inRange ∧ (Instr.peek 65535).port = .consumer ∧
    (Instr.peek 65535).wellFormed stateE.params = true := ⟨stateE_inv, by decide⟩
/-- Three steps of a run: a write, the view catching up, and a LENGTH whose response is the level-A one. -/
theorem witness_HazardFreeRunsRefineLevelA :
    (shadowRun 3 (State.afterReset (params4 .abstract) [] [0x110] [0x30000] [.wclk true, .syncW2R none, .rclk true] 0)
      (Shadow.start (params4 .abstract) [])).map (fun r => (r.1.aliasSeen, r.1.overrunSeen, r.1.rsp.len, r.2.agrees)) =
      some (false, false, 1, true) ∧
    Storage.wf 8 4 [] = true ∧ (∀ e ∈ [Event.wclk true, .syncW2R none, .rclk true], e.isAgentStep = true) := by decide
theorem witness_MachineInvHoldsAtReset : Storage.wf Params.default.dataW Params.default.cap [(0, 255), (9, 0)] = true := by
  decide
theorem witness_StepKeepsMachineInv : BlockInv (driven3 (.wclk true)) ∧ MachineInv (driven3 (.wclk true)) ∧
    (∀ w r, nextEvent (driven3 (.wclk true)) ≠ .pins w r) ∧ (got (step (driven3 (.wclk true)))).isSome = true ∧
    BlockInv halfReset3 := ⟨.inl driven3_inv.1, driven3_inv.1, by decide, by decide, .inr halfReset3_inv⟩

end Sys2Proof.Tests
end

/-! SUPPORT. What an event can answer, said once for each kind of event: the facts about the scope of the model
(00_scope.md R7, R12, R13). -/

namespace Sys2Proof.Machine

/-! ### Elaboration (00_scope.md R7) -/

theorem elaborate_of_not_legal {r : RawParams} (h : ¬ r.Legal) (storage : Storage) (wProg rProg : List Nat)
    (sched : List Event) : elaborate r storage wProg rProg sched = .refused .invalidConstruction := dif_neg h

theorem elaborate_of_legal {r : RawParams} (h : r.Legal) (storage : Storage) (wProg rProg : List Nat)
    (sched : List Event) :
    elaborate r storage wProg rProg sched = .next (State.afterReset ⟨r, h⟩ storage wProg rProg sched 0) := dif_pos h

theorem not_legal_of_cap_lt_two {r : RawParams} (h : r.cap < 2) : ¬ r.Legal :=
  fun ⟨_, hcap, _⟩ => Nat.not_lt.2 hcap h

/-- Settles O21: `Legal` alone decides elaboration, and the capacity alone decides level-A `init`. -/
theorem illegalParametersHaveNoInstance : Obligations.IllegalParametersHaveNoInstance := by
  intro r storage wProg rProg sched dataW capacity
  refine ⟨fun h => elaborate_of_not_legal h .., fun h => elaborate_of_not_legal (not_legal_of_cap_lt_two h) ..,
    fun h => ⟨_, elaborate_of_legal h .., rfl, rfl, rfl, rfl⟩, fun h => if_pos h, fun h => if_neg (Nat.not_lt.2 h)⟩

/-! ### The outcomes of an event (60_exceptions.md R134, R140) -/

section Outcomes

variable (s : State)

theorem exec_next (i : Instr) : ∃ t, exec i s = .next t := ⟨_, exec_eq i s⟩

/-- A `wclk` edge answers a next state but where it accepts a word that is no command (30_encoding.md R66). -/
theorem runFetched_fetchW_cases (present : Bool) :
    (∃ t, runFetched .wNop s (fetchW present s) = .next t) ∨
      ∃ w rest e, present = true ∧ s.wrstN = true ∧ s.wProg = w :: rest ∧ decode s.params .producer w = .error e ∧
        runFetched .wNop s (fetchW present s) = .refused (refusalOf e) := by
  obtain h | ⟨w, rest, hp, hr, hw, ⟨i, -, h⟩ | ⟨e, he, h⟩⟩ := fetchW_cases present s <;> rw [h]
  · exact .inl (exec_next s .wNop)
  · exact .inl (exec_next _ i)
  · exact .inr ⟨w, rest, e, hp, hr, hw, he, rfl⟩

/-- An `rclk` edge answers a next state but where it accepts a word that is no command (R66). -/
theorem runFetched_fetchR_cases (present : Bool) :
    (∃ t, runFetched .rNop s (fetchR present s) = .next t) ∨
      ∃ w rest e, present = true ∧ s.rReady = true ∧ s.rProg = w :: rest ∧ decode s.params .consumer w = .error e ∧
        runFetched .rNop s (fetchR present s) = .refused (refusalOf e) := by
  obtain h | ⟨w, rest, hp, hr, hw, ⟨i, -, h⟩ | ⟨e, he, h⟩⟩ := fetchR_cases present s <;> rw [h]
  · exact .inl (exec_next s .rNop)
  · exact .inl (exec_next _ i)
  · exact .inr ⟨w, rest, e, hp, hr, hw, he, rfl⟩

/-- SyncW2R moves the view or finds it held in reset, or there is no such step (45_synchronizer.md R129). -/
theorem syncW2R_cases (target : Option Nat) :
    (∃ t, syncW2R target s = .next t) ∨
      (s.params.sync = .chains ∧ syncW2R target s = .refused .noSyncStep) ∨
      (s.params.sync = .abstract ∧ s.rrstN = true ∧
        (target.getD s.wAbs < s.wvAbs ∨ s.wAbs < target.getD s.wAbs) ∧
        syncW2R target s = .refused (.syncOutOfRange (target.getD s.wAbs))) := by
  unfold syncW2R
  cases hsync : s.params.sync with
  | chains => exact .inr (.inl ⟨rfl, rfl⟩)
  | abstract =>
    dsimp only
    split
    · exact .inl ⟨_, rfl⟩
    · next hr =>
      split
      · exact .inl ⟨_, rfl⟩
      · next hk => exact .inr (.inr ⟨rfl, by simpa using hr, by omega, rfl⟩)

/-- SyncR2W, in the same way. -/
theorem syncR2W_cases (target : Option Nat) :
    (∃ t, syncR2W target s = .next t) ∨
      (s.params.sync = .chains ∧ syncR2W target s = .refused .noSyncStep) ∨
      (s.params.sync = .abstract ∧ s.wrstN = true ∧
        (target.getD s.rpAbs < s.rpvAbs ∨ s.rpAbs < target.getD s.rpAbs) ∧
        syncR2W target s = .refused (.syncOutOfRange (target.getD s.rpAbs))) := by
  unfold syncR2W
  cases hsync : s.params.sync with
  | chains => exact .inr (.inl ⟨rfl, rfl⟩)
  | abstract =>
    dsimp only
    split
    · exact .inl ⟨_, rfl⟩
    · next hr =>
      split
      · exact .inl ⟨_, rfl⟩
      · next hk => exact .inr (.inr ⟨rfl, by simpa using hr, by omega, rfl⟩)

theorem setPins_whole_next (w r : Bool) (h : s.resetAlone = none) : ∃ t, setPins w r s = .next t := by
  obtain ⟨t, ht, -⟩ := setPinsWhole_cases w r s
  exact ⟨t, by rw [setPins, h, ht]⟩

theorem setPins_half (w r : Bool) (port : Port) (h : s.resetAlone = some port) :
    setPins w r s = setPinsHalf w r s := by rw [setPins, h]

end Outcomes

/-! ### The event that comes next (45_synchronizer.md R130) -/

/-- A view is never ahead of its source (45_synchronizer.md R126). -/
theorem ChainInv.viewAbs_le {p : Params} {src : Nat} {c : SyncChain} (h : ChainInv p src c) : c.viewAbs ≤ src := by
  obtain h0 | hmem := List.mem_cons.1 (List.getLastD_mem_cons (l := c.abs) (a := 0))
  · exact h0.le.trans (Nat.zero_le src)
  · exact (Nat.le_add_right _ _).trans (h.behind _ hmem)

theorem freeTarget_mem (n : Nat) {view src : Nat} (h : view ≤ src) :
    view ≤ freeTarget n view src ∧ freeTarget n view src ≤ src := by
  have := Nat.mod_lt (Config.freeAdvance n) (show 0 < src - view + 1 from Nat.succ_pos _)
  unfold freeTarget
  omega

theorem step_eq {s : State} {e : Event} (h : nextEvent s = e) : step s = eventStep e (afterEvent s) := by
  rw [step, h]

/-- A synchronizer step nobody scheduled is one of the abstract synchronizers, to a target the free choice makes. -/
theorem nextEvent_free_sync {s : State} (hs : s.sched = []) {target : Option Nat} :
    (nextEvent s = .syncW2R target →
      s.params.sync = .abstract ∧ target = some (freeTarget s.draws s.wvAbs s.wAbs)) ∧
    (nextEvent s = .syncR2W target →
      s.params.sync = .abstract ∧ target = some (freeTarget s.draws s.rpvAbs s.rpAbs)) := by
  simp only [nextEvent, hs, freeEvent]
  cases Config.freeAgent s.draws <;> cases s.params.sync <;> simp [eq_comm]

theorem sched_ne_nil_of_sync_chains {s : State} (hc : s.params.sync = .chains)
    (h : ∃ target, nextEvent s = .syncW2R target ∨ nextEvent s = .syncR2W target) : s.sched ≠ [] := by
  intro hs
  obtain ⟨target, h | h⟩ := h
  · have := ((nextEvent_free_sync hs).1 h).1
    simp [hc] at this
  · have := ((nextEvent_free_sync hs).2 h).1
    simp [hc] at this

/-! ### What a step answers at each event -/

section Step

variable {s : State}

@[simp] theorem runsBesideReset_afterEvent (port : Port) :
    (afterEvent s).runsBesideReset port = s.runsBesideReset port := by
  cases port <;> simp [State.runsBesideReset]

theorem runsBesideReset_whole (h : s.resetAlone = none) (port : Port) : s.runsBesideReset port = false := by
  cases port <;> simp [State.runsBesideReset, h]

theorem unlessPartial_idle {port : Port} (h : s.runsBesideReset port = false)
    (o : Host.Outcome State Fault Refusal) : unlessPartial port s o = o := by simp [unlessPartial, h]

theorem unlessPartial_running {port : Port} (h : s.runsBesideReset port = true)
    (o : Host.Outcome State Fault Refusal) : unlessPartial port s o = .refused .partialReset := by
  simp [unlessPartial, h]

theorem step_wclk {present : Bool} (hev : nextEvent s = .wclk present) (hp : s.runsBesideReset .producer = false) :
    (∃ t, step s = .next t) ∨
      ∃ w rest e, present = true ∧ s.wrstN = true ∧ s.wProg = w :: rest ∧ decode s.params .producer w = .error e ∧
        step s = .refused (refusalOf e) := by
  rw [step_eq hev, eventStep, unlessPartial_idle (by simpa using hp)]
  simpa using runFetched_fetchW_cases (afterEvent s) present

theorem step_rclk {present : Bool} (hev : nextEvent s = .rclk present) (hp : s.runsBesideReset .consumer = false) :
    (∃ t, step s = .next t) ∨
      ∃ w rest e, present = true ∧ s.rReady = true ∧ s.rProg = w :: rest ∧ decode s.params .consumer w = .error e ∧
        step s = .refused (refusalOf e) := by
  rw [step_eq hev, eventStep, unlessPartial_idle (by simpa using hp)]
  simpa [State.rReady] using runFetched_fetchR_cases (afterEvent s) present

theorem step_syncW2R {target : Option Nat} (hev : nextEvent s = .syncW2R target)
    (hp : s.runsBesideReset .consumer = false) :
    (∃ t, step s = .next t) ∨
      (s.params.sync = .chains ∧ step s = .refused .noSyncStep) ∨
      (s.params.sync = .abstract ∧ s.rrstN = true ∧
        (target.getD s.wAbs < s.wvAbs ∨ s.wAbs < target.getD s.wAbs) ∧
        step s = .refused (.syncOutOfRange (target.getD s.wAbs))) := by
  rw [step_eq hev, eventStep, unlessPartial_idle (by simpa using hp)]
  simpa [State.wvAbs] using syncW2R_cases (afterEvent s) target

theorem step_syncR2W {target : Option Nat} (hev : nextEvent s = .syncR2W target)
    (hp : s.runsBesideReset .producer = false) :
    (∃ t, step s = .next t) ∨
      (s.params.sync = .chains ∧ step s = .refused .noSyncStep) ∨
      (s.params.sync = .abstract ∧ s.wrstN = true ∧
        (target.getD s.rpAbs < s.rpvAbs ∨ s.rpAbs < target.getD s.rpAbs) ∧
        step s = .refused (.syncOutOfRange (target.getD s.rpAbs))) := by
  rw [step_eq hev, eventStep, unlessPartial_idle (by simpa using hp)]
  simpa [State.rpvAbs] using syncR2W_cases (afterEvent s) target

theorem step_reset (hev : nextEvent s = .reset) : ∃ t, step s = .next t := ⟨_, step_eq hev⟩

theorem step_pins_whole {w r : Bool} (hev : nextEvent s = .pins w r) (h : s.resetAlone = none) :
    ∃ t, step s = .next t := by
  rw [step_eq hev]
  exact setPins_whole_next _ w r (by simpa using h)

/-- With one reset asserted alone the pins reset the block, or stay, or release that reset too early (R156, R157). -/
theorem step_pins_half {w r : Bool} {port : Port} (hev : nextEvent s = .pins w r) (h : s.resetAlone = some port) :
    (∃ t, step s = .next t) ∨
      ((w = true ∨ r = true) ∧ ¬ (w = s.wrstN ∧ r = s.rrstN) ∧ step s = .refused .partialReset) := by
  rw [step_eq hev, eventStep, setPins_half _ w r port (by simpa using h)]
  obtain ⟨-, -, ht⟩ | ⟨-, -, ht⟩ | ⟨hup, hmoved, ht⟩ := setPinsHalf_cases w r (afterEvent s)
  · exact .inl ⟨_, ht⟩
  · exact .inl ⟨_, ht⟩
  · exact .inr ⟨hup, by simpa using hmoved, ht⟩

/-- An out-of-range step of the read domain's view was scheduled, with its target named: the free choice and the whole
way both lie in range. -/
theorem syncW2R_scheduled {target : Option Nat} (hev : nextEvent s = .syncW2R target) (hv : s.wvAbs ≤ s.wAbs)
    (hk : target.getD s.wAbs < s.wvAbs ∨ s.wAbs < target.getD s.wAbs) :
    s.sched ≠ [] ∧ target = some (target.getD s.wAbs) := by
  cases target with
  | none => simp only [Option.getD_none] at hk; omega
  | some k =>
    refine ⟨fun hs => ?_, rfl⟩
    obtain ⟨-, hfree⟩ := (nextEvent_free_sync hs).1 hev
    have := freeTarget_mem s.draws hv
    simp only [Option.getD_some, Option.some.inj hfree] at hk
    omega

theorem syncR2W_scheduled {target : Option Nat} (hev : nextEvent s = .syncR2W target) (hv : s.rpvAbs ≤ s.rpAbs)
    (hk : target.getD s.rpAbs < s.rpvAbs ∨ s.rpAbs < target.getD s.rpAbs) :
    s.sched ≠ [] ∧ target = some (target.getD s.rpAbs) := by
  cases target with
  | none => simp only [Option.getD_none] at hk; omega
  | some k =>
    refine ⟨fun hs => ?_, rfl⟩
    obtain ⟨-, hfree⟩ := (nextEvent_free_sync hs).2 hev
    have := freeTarget_mem s.draws hv
    simp only [Option.getD_some, Option.some.inj hfree] at hk
    omega

/-- With `wrst_n` asserted alone the block goes on, or refuses a partial reset at an edge of the running read domain, a
step of its view or a release of `wrst_n` (R157), or a synchronizer step where the chains have none (R129). -/
theorem step_writeResetAlone (halone : s.resetAlone = some .producer) (hw : s.wrstN = false) (hr : s.rrstN = true) :
    (∃ t, step s = .next t) ∨
      (step s = .refused .partialReset ∧
        ((∃ b, nextEvent s = .rclk b) ∨ (∃ k, nextEvent s = .syncW2R k) ∨ (∃ r, nextEvent s = .pins true r))) ∨
      (s.params.sync = .chains ∧ (∃ target, nextEvent s = .syncR2W target) ∧ step s = .refused .noSyncStep) := by
  have hidle : s.runsBesideReset .producer = false := by simp [State.runsBesideReset, hw]
  have hruns : (afterEvent s).runsBesideReset .consumer = true := by simp [State.runsBesideReset, hr, halone]
  cases hev : nextEvent s with
  | wclk present => exact .inl ((step_wclk hev hidle).resolve_right (by simp [hw]))
  | rclk present =>
    exact .inr (.inl ⟨(step_eq hev).trans (unlessPartial_running hruns _), .inl ⟨present, rfl⟩⟩)
  | syncW2R target =>
    exact .inr (.inl ⟨(step_eq hev).trans (unlessPartial_running hruns _), .inr (.inl ⟨target, rfl⟩)⟩)
  | syncR2W target =>
    obtain ht | ⟨hc, ht⟩ | ⟨-, hw', -⟩ := step_syncR2W hev hidle
    · exact .inl ht
    · exact .inr (.inr ⟨hc, ⟨target, rfl⟩, ht⟩)
    · simp [hw] at hw'
  | reset => exact .inl (step_reset hev)
  | pins w r =>
    obtain ht | ⟨hup, hmoved, ht⟩ := step_pins_half hev halone
    · exact .inl ht
    · obtain rfl : w = true := by cases w <;> simp_all
      exact .inr (.inl ⟨ht, .inr (.inr ⟨r, rfl⟩)⟩)

/-- With `rrst_n` asserted alone, in the same way: the write domain is the one that runs. -/
theorem step_readResetAlone (halone : s.resetAlone = some .consumer) (hr : s.rrstN = false) (hw : s.wrstN = true) :
    (∃ t, step s = .next t) ∨
      (step s = .refused .partialReset ∧
        ((∃ b, nextEvent s = .wclk b) ∨ (∃ k, nextEvent s = .syncR2W k) ∨ (∃ w, nextEvent s = .pins w true))) ∨
      (s.params.sync = .chains ∧ (∃ target, nextEvent s = .syncW2R target) ∧ step s = .refused .noSyncStep) := by
  have hidle : s.runsBesideReset .consumer = false := by simp [State.runsBesideReset, hr]
  have hruns : (afterEvent s).runsBesideReset .producer = true := by simp [State.runsBesideReset, hw, halone]
  cases hev : nextEvent s with
  | wclk present =>
    exact .inr (.inl ⟨(step_eq hev).trans (unlessPartial_running hruns _), .inl ⟨present, rfl⟩⟩)
  | rclk present => exact .inl ((step_rclk hev hidle).resolve_right (by simp [State.rReady, hr]))
  | syncW2R target =>
    obtain ht | ⟨hc, ht⟩ | ⟨-, hr', -⟩ := step_syncW2R hev hidle
    · exact .inl ht
    · exact .inr (.inr ⟨hc, ⟨target, rfl⟩, ht⟩)
    · simp [hr] at hr'
  | syncR2W target =>
    exact .inr (.inl ⟨(step_eq hev).trans (unlessPartial_running hruns _), .inr (.inl ⟨target, rfl⟩)⟩)
  | reset => exact .inl (step_reset hev)
  | pins w r =>
    obtain ht | ⟨hup, hmoved, ht⟩ := step_pins_half hev halone
    · exact .inl ht
    · obtain rfl : r = true := by cases r <;> simp_all
      exact .inr (.inl ⟨ht, .inr (.inr ⟨w, rfl⟩)⟩)

end Step

/-- Settles O10: one case for each kind of event; the invariant puts both views at or behind their sources, so only a
scheduled target can be out of range. -/
theorem stepStopsOnlyForItsNamedReasons : Obligations.StepStopsOnlyForItsNamedReasons := by
  intro s
  refine ⟨fun hinv => ?_, fun hhalf => ?_⟩
  · have hruns := runsBesideReset_whole hinv.whole
    cases hev : nextEvent s with
    | wclk present =>
      obtain ht | ⟨w, rest, e, rfl, hw⟩ := step_wclk hev (hruns _)
      · exact .inl ht
      · exact .inr (.inl ⟨w, rest, e, rfl, hw⟩)
    | rclk present =>
      obtain ht | ⟨w, rest, e, rfl, hready, hw⟩ := step_rclk hev (hruns _)
      · exact .inl ht
      · obtain ⟨hr, hpk⟩ : s.rrstN = true ∧ s.pk.active = false := by simpa [State.rReady] using hready
        exact .inr (.inr (.inl ⟨w, rest, e, rfl, hr, hpk, hw⟩))
    | syncW2R target =>
      obtain ht | ⟨hc, ht⟩ | ⟨ha, hr, hk, ht⟩ := step_syncW2R hev (hruns _)
      · exact .inl ht
      · exact .inr (.inr (.inr (.inl ⟨sched_ne_nil_of_sync_chains hc ⟨target, .inl hev⟩, hc, ⟨target, .inl rfl⟩, ht⟩)))
      · obtain ⟨hs, htarget⟩ := syncW2R_scheduled hev hinv.ws.viewAbs_le hk
        exact .inr (.inr (.inr (.inr ⟨hs, ha, _, ht, .inl ⟨congrArg _ htarget, hr, hk⟩⟩)))
    | syncR2W target =>
      obtain ht | ⟨hc, ht⟩ | ⟨ha, hr, hk, ht⟩ := step_syncR2W hev (hruns _)
      · exact .inl ht
      · exact .inr (.inr (.inr (.inl ⟨sched_ne_nil_of_sync_chains hc ⟨target, .inr hev⟩, hc, ⟨target, .inr rfl⟩, ht⟩)))
      · obtain ⟨hs, htarget⟩ := syncR2W_scheduled hev hinv.rs.viewAbs_le hk
        exact .inr (.inr (.inr (.inr ⟨hs, ha, _, ht, .inr ⟨congrArg _ htarget, hr, hk⟩⟩)))
    | reset => exact .inl (step_reset hev)
    | pins w r => exact .inl (step_pins_whole hev hinv.whole)
  · obtain ⟨halone, hw, hr, -⟩ | ⟨halone, hr, hw, -⟩ := hhalf.alone
    · obtain ht | ⟨ht, hev⟩ | ⟨hc, ⟨target, hev⟩, ht⟩ := step_writeResetAlone halone hw hr
      · exact .inl ht
      · exact .inr (.inl ⟨halone, ht, hev⟩)
      · have hsync : ∃ target, nextEvent s = .syncW2R target ∨ nextEvent s = .syncR2W target := ⟨target, .inr hev⟩
        exact .inr (.inr (.inr ⟨sched_ne_nil_of_sync_chains hc hsync, hc, hsync, ht⟩))
    · obtain ht | ⟨ht, hev⟩ | ⟨hc, ⟨target, hev⟩, ht⟩ := step_readResetAlone halone hr hw
      · exact .inl ht
      · exact .inr (.inr (.inl ⟨halone, ht, hev⟩))
      · have hsync : ∃ target, nextEvent s = .syncW2R target ∨ nextEvent s = .syncR2W target := ⟨target, .inl hev⟩
        exact .inr (.inr (.inr ⟨sched_ne_nil_of_sync_chains hc hsync, hc, hsync, ht⟩))

end Sys2Proof.Machine

/-! SUPPORT. No hardware rule reads a ghost (00_scope.md R13, 10_state.md R34): every command commutes with clearing the
ghosts. -/

namespace Sys2Proof.Machine

section EraseGhosts

variable (s : State)

@[simp] theorem eraseGhosts_pk : s.eraseGhosts.pk = s.pk := rfl
@[simp] theorem eraseGhosts_wrstN : s.eraseGhosts.wrstN = s.wrstN := rfl
@[simp] theorem eraseGhosts_rrstN : s.eraseGhosts.rrstN = s.rrstN := rfl
@[simp] theorem eraseGhosts_cnt : s.eraseGhosts.cnt = s.cnt := rfl

end EraseGhosts

/-! ### The chains -/

/-- What a chain's ghosts look like once cleared depends on how many stages there are. -/
theorem SyncChain.eraseGhosts_congr {c d : SyncChain} (hstages : c.stages = d.stages)
    (habs : c.abs.length = d.abs.length) (hheld : c.held = d.held) : c.eraseGhosts = d.eraseGhosts := by
  simp [SyncChain.eraseGhosts, List.map_const', hstages, habs, hheld]

theorem SyncChain.shiftIn_length (x : Nat) (l : List Nat) : (SyncChain.shiftIn x l).length = l.length := by
  simp [SyncChain.shiftIn]

theorem SyncChain.eraseGhosts_capture (p : Params) (n src srcAbs srcAbs' : Nat) (c : SyncChain) :
    (c.eraseGhosts.capture p n src srcAbs').eraseGhosts = (c.capture p n src srcAbs).eraseGhosts := by
  unfold SyncChain.capture
  cases p.sync with
  | abstract => exact eraseGhosts_congr rfl (by simp [eraseGhosts]) rfl
  | chains => exact eraseGhosts_congr rfl (by simp [shiftIn_length, eraseGhosts]) rfl

theorem SyncChain.eraseGhosts_sourceMoved (p : Params) (old : Nat) (c : SyncChain) :
    (c.eraseGhosts.sourceMoved p old).eraseGhosts = (c.sourceMoved p old).eraseGhosts := by
  unfold SyncChain.sourceMoved
  cases p.sync <;> exact eraseGhosts_congr rfl (by simp [eraseGhosts]) rfl

theorem SyncChain.eraseGhosts_eraseGhosts (c : SyncChain) : c.eraseGhosts.eraseGhosts = c.eraseGhosts :=
  eraseGhosts_congr rfl (by simp [eraseGhosts]) rfl

/-! ### The effects of the consumer's commands -/

/-- An effect with the ghosts it decides cleared. -/
def ReadEffect.eraseGhosts (e : ReadEffect) : ReadEffect := { e with pkBaseAbs := 0, overrun := false }

theorem beatEffect_eraseGhosts (s : State) :
    (beatEffect s.eraseGhosts).eraseGhosts = (beatEffect s).eraseGhosts := rfl

theorem peekEffect_eraseGhosts (a : Nat) (s : State) :
    (peekEffect a s.eraseGhosts).eraseGhosts = (peekEffect a s).eraseGhosts := by
  unfold peekEffect
  by_cases hn : min s.cnt a = 0 <;> simp only [eraseGhosts_cnt, hn, if_true, if_false] <;> rfl

theorem getNthEffect_eraseGhosts (i : Nat) (s : State) :
    (getNthEffect i s.eraseGhosts).eraseGhosts = (getNthEffect i s).eraseGhosts := by
  unfold getNthEffect
  by_cases hi : i < s.cnt <;> simp only [eraseGhosts_cnt, hi, if_true, if_false] <;> rfl

theorem getNthCheckedEffect_eraseGhosts (i : Nat) (s : State) :
    (getNthCheckedEffect i s.eraseGhosts).eraseGhosts = (getNthCheckedEffect i s).eraseGhosts := by
  unfold getNthCheckedEffect
  cases hi : outOfRange s.cnt i <;> simp only [eraseGhosts_cnt, hi, if_true] <;> rfl

theorem commandEffect_eraseGhosts (s : State) (i : Instr) :
    (commandEffect s.eraseGhosts i).eraseGhosts = (commandEffect s i).eraseGhosts := by
  cases i with
  | peek a => exact peekEffect_eraseGhosts _ s
  | getNth a => exact getNthEffect_eraseGhosts _ s
  | getNthChecked a => exact getNthCheckedEffect_eraseGhosts _ s
  | _ => rfl

/-! ### The edges -/

theorem eraseGhosts_writeStep (cmd : Option Nat) (s : State) :
    (writeStep cmd s.eraseGhosts).eraseGhosts = (writeStep cmd s).eraseGhosts := by
  have hrs := SyncChain.eraseGhosts_capture s.params s.draws s.rpGray s.rpAbs 0 s.rs
  have hws := SyncChain.eraseGhosts_sourceMoved s.params s.wGray s.ws
  cases cmd <;> simp [writeStep, State.eraseGhosts, hrs, hws, SyncChain.eraseGhosts_eraseGhosts]

theorem eraseGhosts_readCommit {e e' : ReadEffect} (h : e'.eraseGhosts = e.eraseGhosts) (s : State) :
    (readCommit e' s.eraseGhosts).eraseGhosts = (readCommit e s).eraseGhosts := by
  obtain ⟨rn, rsp, pk, pkBaseAbs, overrun⟩ := e
  obtain ⟨rn', rsp', pk', pkBaseAbs', overrun'⟩ := e'
  simp only [ReadEffect.eraseGhosts, ReadEffect.mk.injEq, and_true] at h
  obtain ⟨rfl, rfl, rfl⟩ := h
  have hws := SyncChain.eraseGhosts_capture s.params s.draws s.wGray s.wAbs 0 s.ws
  have hrs := SyncChain.eraseGhosts_sourceMoved s.params s.rpGray s.rs
  by_cases hm : s.rpBin = s.rBin <;>
    simp [readCommit, State.eraseGhosts, hm, hws, hrs, SyncChain.eraseGhosts_eraseGhosts]

theorem eraseGhosts_eraseGhosts (s : State) : s.eraseGhosts.eraseGhosts = s.eraseGhosts := by
  simp [State.eraseGhosts, SyncChain.eraseGhosts_eraseGhosts]

theorem eraseGhosts_writeEdge (cmd : Option Nat) (s : State) :
    (writeEdge cmd s.eraseGhosts).eraseGhosts = (writeEdge cmd s).eraseGhosts := by
  cases h : s.wrstN <;> simp [writeEdge, h, eraseGhosts_writeStep, eraseGhosts_eraseGhosts]

theorem eraseGhosts_readEdge {e e' : ReadEffect} (h : e'.eraseGhosts = e.eraseGhosts) (s : State) :
    (readEdge e' s.eraseGhosts).eraseGhosts = (readEdge e s).eraseGhosts := by
  cases hr : s.rrstN with
  | false => simp [readEdge, hr, eraseGhosts_eraseGhosts]
  | true =>
    cases hpk : s.pk.active <;>
      simp [readEdge, readStep, hr, hpk, eraseGhosts_readCommit h, eraseGhosts_readCommit (beatEffect_eraseGhosts s)]

/-- A command completes with the hardware it completes with where the ghosts are cleared first. -/
theorem exec_eraseGhosts (i : Instr) (s : State) :
    ∃ t t', exec i s = .next t ∧ exec i s.eraseGhosts = .next t' ∧ t'.eraseGhosts = t.eraseGhosts := by
  refine ⟨_, _, exec_eq i s, exec_eq i s.eraseGhosts, ?_⟩
  cases i.port with
  | producer => exact eraseGhosts_writeEdge (commandElement s i) s
  | consumer => exact eraseGhosts_readEdge (commandEffect_eraseGhosts s i) s

/-- Settles O47: both states run the command as their common image without ghosts does. -/
theorem commandsReadNoGhost : Obligations.CommandsReadNoGhost := by
  intro s u i hsame
  obtain ⟨t, t', ht, ht', hts⟩ := exec_eraseGhosts i s
  obtain ⟨v, v', hv, hv', hvs⟩ := exec_eraseGhosts i u
  have hcommon : t' = v' := Host.Outcome.next.inj (ht'.symm.trans (hsame ▸ hv'))
  exact ⟨t, v, ht, hv, by rw [← hts, hcommon, hvs]⟩

end Sys2Proof.Machine

/-! SUPPORT. The pointer codes decode (41_gray_counter.md R85 to R88), and the modulo arithmetic in absolute counts
(42_pointer_generator.md R93 to R103). -/

namespace Sys2Proof.Machine

/-! ### The Gray code -/

theorem gray_lt {n x : Nat} (h : x < 2 ^ n) : gray x < 2 ^ n :=
  Nat.xor_lt_two_pow h ((Nat.shiftRight_le x 1).trans_lt h)

/-- The terms of the inverse law telescope (R85). -/
theorem ungray_gray_eq (n x : Nat) : ungray n (gray x) = x ^^^ (x >>> n) := by
  induction n with
  | zero => simp [ungray]
  | succ n ih =>
    have hshift : gray x >>> n = x >>> n ^^^ x >>> (n + 1) := by
      rw [gray, Nat.shiftRight_xor_distrib, ← Nat.shiftRight_add, Nat.add_comm 1 n]
    rw [ungray, ih, hshift, Nat.xor_assoc, Nat.xor_xor_cancel_left]

theorem ungray_gray {n x : Nat} (h : x < 2 ^ n) : ungray n (gray x) = x := by
  rw [ungray_gray_eq, Nat.shiftRight_eq_zero x n h, Nat.xor_zero]

theorem le_two_pow_clog2 (x : Nat) : x ≤ 2 ^ clog2 x := by
  unfold clog2
  split
  · next h => simpa using h
  · have := @Nat.lt_log2_self (x - 1)
    omega

section Codes

variable (p : Params)

theorem ptrMod_le_two_pow : p.ptrMod ≤ 2 ^ ptrWidth p := le_two_pow_clog2 p.ptrMod

variable {p} {b : Nat} (hb : b < p.ptrMod)
include hb

theorem add_grayOffset_lt : b + grayOffset p < 2 ^ ptrWidth p := by
  have := ptrMod_le_two_pow p
  unfold grayOffset
  omega

theorem ungray_code : ungray (ptrWidth p) (code p b) = b + grayOffset p := ungray_gray (add_grayOffset_lt hb)

theorem validCode_code : validCode p (code p b) = true := by
  have hlt : code p b < 2 ^ ptrWidth p := gray_lt (add_grayOffset_lt hb)
  simp [validCode, hlt, ungray_code hb, Nat.add_comm b, hb]

theorem decodeCode_code (port : Port) (n : Nat) : decodeCode p port n (code p b) = b := by
  simp [decodeCode, validCode_code hb, ungray_code hb]

end Codes

/-! ### Pointers as absolute counts mod M -/

section Pointers

variable (p : Params)

theorem pgInc_mod (a : Nat) : pgInc p (a % p.ptrMod) = (a + 1) % p.ptrMod := Nat.mod_add_mod a p.ptrMod 1

theorem pgAdd_mod (a k : Nat) : pgAdd p (a % p.ptrMod) k = (a + k) % p.ptrMod := Nat.mod_add_mod a p.ptrMod k

theorem pgSub_mod {a k : Nat} (h : k ≤ a) : pgSub p (a % p.ptrMod) k = (a - k) % p.ptrMod := by
  have hk : a + (p.ptrMod - k % p.ptrMod) = a - k + p.ptrMod * (k / p.ptrMod + 1) := by
    have := Nat.div_add_mod k p.ptrMod
    have := Nat.mod_lt k p.ptrMod_pos
    rw [Nat.mul_succ]
    omega
  rw [pgSub, Nat.mod_add_mod, hk, Nat.add_mul_mod_self_left]

theorem pgDist_mod {a b : Nat} (h : b ≤ a) : pgDist p (a % p.ptrMod) (b % p.ptrMod) = (a - b) % p.ptrMod := by
  rw [← pgSub_mod p h, pgDist, pgSub, Nat.mod_mod, ← pgSub]

/-- How far a pointer moved is its distance, where it moved by less than M. -/
theorem pgDist_add_mod {a k : Nat} (h : k < p.ptrMod) : pgDist p ((a + k) % p.ptrMod) (a % p.ptrMod) = k := by
  rw [pgDist_mod p (Nat.le_add_right a k), Nat.add_sub_cancel_left, Nat.mod_eq_of_lt h]

/-- The effective tail (R98) in absolute counts: what the read pointer lags beyond `cap - 1` is skipped. -/
theorem pgEffTail_mod {r wv : Nat} (h : r ≤ wv) :
    pgEffTail p (r % p.ptrMod) (wv % p.ptrMod) = (r + ((wv - r) % p.ptrMod - (p.cap - 1))) % p.ptrMod := by
  rw [pgEffTail, pgDist_mod p h]
  have hlag := Nat.mod_add_div (wv - r) p.ptrMod
  generalize (wv - r) % p.ptrMod = d at hlag ⊢
  split
  · next hd => rw [Nat.sub_eq_zero_of_le hd, Nat.add_zero]
  · next hd =>
    have hwv : wv - (p.cap - 1) = r + (d - (p.cap - 1)) + p.ptrMod * ((wv - r) / p.ptrMod) := by omega
    rw [pgSub_mod p (by omega), hwv, Nat.add_mul_mod_self_left]

/-- The count (R99) in absolute counts: the lag mod M, clamped to `cap - 1`. -/
theorem pgCount_mod {r wv : Nat} (h : r ≤ wv) :
    pgCount p (r % p.ptrMod) (wv % p.ptrMod) = min ((wv - r) % p.ptrMod) (p.cap - 1) := by
  have hlag := Nat.mod_add_div (wv - r) p.ptrMod
  have hlt := Nat.mod_lt (wv - r) p.ptrMod_pos
  rw [pgCount, pgEffTail_mod p h]
  generalize (wv - r) % p.ptrMod = d at hlag hlt ⊢
  have hrest : wv - (r + (d - (p.cap - 1))) = min d (p.cap - 1) + p.ptrMod * ((wv - r) / p.ptrMod) := by omega
  rw [pgDist_mod p (by omega), hrest, Nat.add_mul_mod_self_left, Nat.mod_eq_of_lt (by omega)]

end Pointers

end Sys2Proof.Machine

/-! SUPPORT. What an edge, a synchronizer step and a move of the source do to a crossing (45_synchronizer.md R124 to
R129), in absolute counts. -/

namespace Sys2Proof.Machine

section Crossing

variable {p : Params} {src : Nat} {c : SyncChain}

theorem getLastD_replicate_stages (p : Params) (a : Nat) : (List.replicate p.syncStages a).getLastD 0 = a := by
  obtain ⟨n, hn⟩ : ∃ n, p.syncStages = n + 1 :=
    Nat.exists_eq_succ_of_ne_zero (Nat.ne_zero_of_lt p.two_le_syncStages)
  rw [hn, List.replicate_succ', List.getLastD_concat]

@[simp] theorem viewAbs_atReset (p : Params) : (SyncChain.atReset p).viewAbs = 0 := getLastD_replicate_stages p 0

@[simp] theorem viewAbs_jump (k : Nat) : (c.jump p k).viewAbs = k := getLastD_replicate_stages p k

@[simp] theorem viewAbs_sourceMoved (old : Nat) : (c.sourceMoved p old).viewAbs = c.viewAbs := by
  rw [SyncChain.viewAbs, sourceMoved_abs, ← SyncChain.viewAbs]

theorem ChainInv.atReset (p : Params) : ChainInv p 0 (SyncChain.atReset p) where
  length := by simp [SyncChain.atReset]
  stages := by simp [SyncChain.atReset]
  sorted := by simp [SyncChain.atReset, List.pairwise_replicate]
  behind := by simp +contextual [SyncChain.atReset, List.mem_replicate]
  heldLength := by simp [SyncChain.atReset]
  held := by simp [SyncChain.atReset]
  heldAbstract _ := rfl

variable (h : ChainInv p src c)
include h

theorem ChainInv.abs_ne_nil : c.abs ≠ [] := by
  have := p.two_le_syncStages
  exact List.ne_nil_of_length_pos (by rw [h.length]; omega)

theorem ChainInv.viewAbs_eq_getLast : c.viewAbs = c.abs.getLast h.abs_ne_nil := by
  rw [SyncChain.viewAbs, List.getLastD_eq_getLast?, List.getLast?_eq_some_getLast h.abs_ne_nil, Option.getD_some]

theorem ChainInv.viewAbs_mem : c.viewAbs ∈ c.abs := h.viewAbs_eq_getLast ▸ List.getLast_mem _

/-- The view is the oldest value in the chain (R126). -/
theorem ChainInv.viewAbs_le_of_mem {a : Nat} (ha : a ∈ c.abs) : c.viewAbs ≤ a := by
  rw [h.viewAbs_eq_getLast]
  exact h.sorted.rel_getLast ha

/-- The last stage holds the code of the view's absolute value. -/
theorem ChainInv.lastStage_eq : c.lastStage = code p (c.viewAbs % p.ptrMod) := by
  rw [SyncChain.lastStage, h.stages, List.getLastD_eq_getLast?, List.getLast?_map,
    List.getLast?_eq_some_getLast h.abs_ne_nil, h.viewAbs_eq_getLast, Option.map_some, Option.getD_some]

/-- The decoded view is its ghost mod M (R87, R127). -/
theorem ChainInv.view_eq (port : Port) (n : Nat) : c.view p port n = c.viewAbs % p.ptrMod := by
  rw [SyncChain.view, h.lastStage_eq, decodeCode_code (Nat.mod_lt _ p.ptrMod_pos)]

/-- Every stage holds a valid code (R31). -/
theorem ChainInv.validCode_of_mem {g : Nat} (hg : g ∈ c.stages) : validCode p g = true := by
  rw [h.stages] at hg
  obtain ⟨a, -, rfl⟩ := List.mem_map.1 hg
  exact validCode_code (Nat.mod_lt _ p.ptrMod_pos)

/-- The codes a capture can take: those the source stepped through since the chain's last edge, newest first (R125). -/
theorem ChainInv.window : code p (src % p.ptrMod) :: c.held =
    (List.range (c.held.length + 1)).map fun j => code p ((src - j) % p.ptrMod) := by
  rw [List.range_succ_eq_map, List.map_cons, List.map_map]
  refine congrArg _ (h.held.trans (List.map_congr_left fun j _ => ?_))
  rw [Function.comp_apply, Nat.sub_sub, Nat.add_comm 1 j]

/-- The code captured is that of the count `back` before the source's. -/
theorem ChainInv.window_getD {back : Nat} (hback : back ≤ c.held.length) (d : Nat) :
    (code p (src % p.ptrMod) :: c.held).getD back d = code p ((src - back) % p.ptrMod) := by
  rw [h.window, List.getD_eq_getElem?_getD, List.getElem?_map, List.getElem?_range (by omega), Option.map_some,
    Option.getD_some]

/-- The source steps on by one and leaves its code in the capture window. -/
theorem ChainInv.sourceMoved : ChainInv p (src + 1) (c.sourceMoved p (code p (src % p.ptrMod))) := by
  unfold SyncChain.sourceMoved
  cases hsync : p.sync with
  | abstract =>
    have hheld := h.heldAbstract hsync
    exact { h with
      behind := fun a ha => (h.behind a ha).trans (Nat.le_succ src)
      heldLength := h.heldLength.trans (Nat.le_succ src)
      held := by simp [hheld] }
  | chains =>
    exact { h with
      behind := fun a ha => Nat.succ_le_succ (h.behind a ha)
      heldLength := Nat.succ_le_succ h.heldLength
      held := h.window
      heldAbstract := fun ha => by simp [hsync] at ha }

/-- A value no older than any in the chain enters, with its code, and empties the window. -/
theorem ChainInv.shiftIn {x : Nat} (hx : x ≤ src) (hnew : ∀ a ∈ c.abs, a ≤ x) :
    ChainInv p src ⟨SyncChain.shiftIn (code p (x % p.ptrMod)) c.stages, SyncChain.shiftIn x c.abs, []⟩ where
  length := (SyncChain.shiftIn_length x c.abs).trans h.length
  stages := by simp [SyncChain.shiftIn, h.stages, List.map_take]
  sorted := (List.pairwise_cons.2 ⟨hnew, h.sorted⟩).sublist (List.take_sublist _ _)
  behind a ha := by
    obtain rfl | ha := List.mem_cons.1 (List.mem_of_mem_take ha)
    · exact hx
    · exact (hnew a ha).trans hx
  heldLength := Nat.zero_le src
  held := rfl
  heldAbstract _ := rfl

/-- A captured value lies between the chain's values and the source's. -/
theorem ChainInv.le_sub_sampleBack (n : Nat) {a : Nat} (ha : a ∈ c.abs) : a ≤ src - c.sampleBack n := by
  have := h.behind a ha
  have := sampleBack_le n c
  omega

theorem ChainInv.capture (n : Nat) : ChainInv p src (c.capture p n (code p (src % p.ptrMod)) src) := by
  unfold SyncChain.capture
  cases p.sync with
  | abstract => exact h
  | chains =>
    dsimp only
    rw [h.window_getD (sampleBack_le n c)]
    exact h.shiftIn (Nat.sub_le _ _) fun a => h.le_sub_sampleBack n

/-- No edge takes a view back (R126). -/
theorem ChainInv.viewAbs_le_capture (n : Nat) :
    c.viewAbs ≤ (c.capture p n (code p (src % p.ptrMod)) src).viewAbs := by
  have hmem := (h.capture n).viewAbs_mem
  generalize (c.capture p n (code p (src % p.ptrMod)) src).viewAbs = v at hmem ⊢
  unfold SyncChain.capture at hmem
  cases hsync : p.sync with
  | abstract =>
    rw [hsync] at hmem
    exact h.viewAbs_le_of_mem hmem
  | chains =>
    rw [hsync] at hmem
    obtain rfl | hold := List.mem_cons.1 (List.mem_of_mem_take hmem)
    · exact h.le_sub_sampleBack n h.viewAbs_mem
    · exact h.viewAbs_le_of_mem hold

theorem ChainInv.jump (hsync : p.sync = .abstract) {k : Nat} (hk : k ≤ src) : ChainInv p src (c.jump p k) where
  length := List.length_replicate
  stages := by simp [SyncChain.jump]
  sorted := List.pairwise_replicate.2 (.inr le_rfl)
  behind a ha := by
    obtain rfl := List.eq_of_mem_replicate ha
    simpa [SyncChain.jump, h.heldAbstract hsync] using hk
  heldLength := h.heldLength
  held := h.held
  heldAbstract := h.heldAbstract

end Crossing

end Sys2Proof.Machine

/-! SUPPORT. The machine's invariant (10_state.md R31): what it says of the views, and how an edge of the write
domain keeps it. -/

namespace Sys2Proof.Machine

/-! ### The read domain's arithmetic under the invariant (44_read_port.md R112) -/

/-- How far the view of the write pointer is ahead of the read pointer, as the read domain sees it: mod M. -/
def State.lag (s : State) : Nat := (s.wvAbs - s.rAbs) % s.params.ptrMod

/-- How far normalisation moves the read pointer: what it lags beyond `cap - 1` (R113). -/
def State.skip (s : State) : Nat := s.lag - (s.params.cap - 1)

section Lag

variable (s : State)

theorem lag_lt : s.lag < s.params.ptrMod := Nat.mod_lt _ s.params.ptrMod_pos

theorem lag_le : s.lag ≤ s.wvAbs - s.rAbs := Nat.mod_le _ _

theorem skip_le_lag : s.skip ≤ s.lag := Nat.sub_le _ _

variable {s}

theorem effTailAbs_eq (hrange : s.inRange) : s.effTailAbs = s.rAbs + s.skip := by
  have hpos := s.params.ptrMod_pos
  have hlag : s.lag = s.wvAbs - s.rAbs := Nat.mod_eq_of_lt (by unfold State.inRange at hrange; omega)
  unfold State.effTailAbs State.skip
  omega

end Lag

section UnderInv

variable {s : State} (h : MachineInv s)
include h

theorem MachineInv.wv_eq : s.wv = s.wvAbs % s.params.ptrMod := h.ws.view_eq _ _

theorem MachineInv.wGray_eq : s.wGray = code s.params (s.wAbs % s.params.ptrMod) := by rw [h.wGray, h.wBin]

theorem MachineInv.rpGray_eq : s.rpGray = code s.params (s.rpAbs % s.params.ptrMod) := by rw [h.rpGray, h.rpBin]

theorem MachineInv.effTail_eq : s.effTail = (s.rAbs + s.skip) % s.params.ptrMod := by
  rw [State.effTail, h.wv_eq, h.rBin, pgEffTail_mod _ h.behindView, State.skip, State.lag]

theorem MachineInv.cnt_eq : s.cnt = min s.lag (s.params.cap - 1) := by
  rw [State.cnt, h.wv_eq, h.rBin, pgCount_mod _ h.behindView, State.lag]

theorem MachineInv.cnt_le : s.cnt ≤ s.params.cap - 1 := h.cnt_eq ▸ Nat.min_le_right _ _

theorem MachineInv.skip_add_cnt : s.skip + s.cnt = s.lag := by
  rw [h.cnt_eq, State.skip]
  omega

/-- The elements counted lie between the effective tail and the view, in absolute counts too. -/
theorem MachineInv.effTailAbs_add_cnt_le : s.effTailAbs + s.cnt ≤ s.wvAbs := by
  have hcnt := h.cnt_eq
  have hlag := lag_le s
  have hview := h.behindView
  unfold State.effTailAbs
  omega

/-- The published pointer moves only while it is behind the read pointer. -/
theorem MachineInv.rpAbs_lt (hmoves : s.rpBin ≠ s.rBin) : s.rpAbs < s.rAbs := by
  refine h.published.lt_of_ne fun heq => hmoves ?_
  rw [h.rpBin, h.rBin, heq]

/-- What a read-domain edge shows is an element (R114). -/
theorem MachineInv.readElem_lt (a : Nat) : readElem s a < 2 ^ s.params.dataW := by
  unfold readElem
  split
  · exact Nat.mod_lt _ (Nat.two_pow_pos _)
  · exact Storage.read_lt _ _ _ _ h.storage

/-- The register invariants of R31 are the part of the machine's invariant that speaks of the hardware. -/
theorem MachineInv.registerInv : RegisterInv s where
  wBin := h.wBin ▸ Nat.mod_lt _ s.params.ptrMod_pos
  rBin := h.rBin ▸ Nat.mod_lt _ s.params.ptrMod_pos
  rpBin := h.rpBin ▸ Nat.mod_lt _ s.params.ptrMod_pos
  wGray := h.wGray
  rpGray := h.rpGray
  rs _ := h.rs.validCode_of_mem
  ws _ := h.ws.validCode_of_mem
  pkIndex hactive := (h.pkIndex hactive).2
  pkCount := h.pkCount

/-- The invariant says nothing of the drivers' lists, the schedule and the draws. -/
theorem MachineInv.withDrivers (wProg rProg : List Nat) (sched : List Event) (draws : Nat) :
    MachineInv { s with wProg := wProg, rProg := rProg, sched := sched, draws := draws } := { h with }

end UnderInv

/-! ### Edges of the write domain (43_write_port.md R105) -/

/-- An edge of a gray_counter in absolute counts (41_gray_counter.md R90). -/
theorem GrayCounter.edge_mod (p : Params) (en : Bool) (a : Nat) :
    GrayCounter.edge p en ⟨a % p.ptrMod, code p (a % p.ptrMod)⟩ =
      ⟨(if en then a + 1 else a) % p.ptrMod, code p ((if en then a + 1 else a) % p.ptrMod)⟩ := by
  cases en <;> simp [GrayCounter.edge, pgInc_mod]

theorem WriteEdgeFrame.readAtReset {s t : State} (f : WriteEdgeFrame s t) : t.readAtReset = s.readAtReset := by
  rw [State.readAtReset, f.rBin, f.rpBin, f.rpGray, f.wsStages, f.pk, f.rsp, f.params, ← State.readAtReset]

theorem WriteEdgeFrame.wvAbs {s t : State} (f : WriteEdgeFrame s t) : t.wvAbs = s.wvAbs :=
  congrArg (·.getLastD 0) f.wsAbs

theorem ReadEdgeFrame.writeAtReset {s t : State} (f : ReadEdgeFrame s t) : t.writeAtReset = s.writeAtReset := by
  rw [State.writeAtReset, f.wBin, f.wGray, f.rsStages, f.params, ← State.writeAtReset]

theorem ReadEdgeFrame.rpvAbs {s t : State} (f : ReadEdgeFrame s t) : t.rpvAbs = s.rpvAbs :=
  congrArg (·.getLastD 0) f.rsAbs

section WriteDomain

variable {s : State} (h : MachineInv s)
include h

theorem MachineInv.writeStep_counter (cmd : Option Nat) :
    GrayCounter.edge s.params cmd.isSome ⟨s.wBin, s.wGray⟩ =
      ⟨(writeStep cmd s).wAbs % s.params.ptrMod, code s.params ((writeStep cmd s).wAbs % s.params.ptrMod)⟩ := by
  rw [h.wGray_eq, h.wBin, GrayCounter.edge_mod, writeStep_wAbs]

theorem MachineInv.writeStep_storage (cmd : Option Nat) :
    (writeStep cmd s).storage.wf s.params.dataW s.params.cap = true := by
  cases cmd with
  | none => exact h.storage
  | some v => exact Storage.wf_write _ _ _ _ _ (pgIdx_lt _ _) h.storage

theorem MachineInv.writeStep_ws (cmd : Option Nat) :
    ChainInv s.params (writeStep cmd s).wAbs (writeStep cmd s).ws := by
  cases cmd with
  | none => exact h.ws
  | some v => simpa [h.wGray_eq] using h.ws.sourceMoved

theorem MachineInv.after_writeStep (hw : s.wrstN = true) (cmd : Option Nat) : MachineInv (writeStep cmd s) := by
  have f := writeStep_frame cmd s
  exact { h with
    storage := h.writeStep_storage cmd
    wBin := congrArg GrayCounter.bin (h.writeStep_counter cmd)
    wGray := by rw [writeStep_wGray, writeStep_wBin, h.writeStep_counter, writeStep_params]
    ws := h.writeStep_ws cmd
    rs := by simpa [h.rpGray_eq] using h.rs.capture s.draws
    behindView := f.wvAbs ▸ h.behindView
    pkBehind := f.wvAbs ▸ h.pkBehind
    inWriteReset := fun hw' => by simp [hw] at hw'
    inReadReset := by simpa [f.readAtReset, f.wvAbs] using h.inReadReset }

theorem MachineInv.after_writeEdge (cmd : Option Nat) : MachineInv (writeEdge cmd s) := by
  obtain ⟨-, he⟩ | ⟨hw, he⟩ := writeEdge_cases cmd s <;> rw [he]
  · exact h
  · exact h.after_writeStep hw cmd

end WriteDomain

end Sys2Proof.Machine

/-! SUPPORT. What the machine's invariant asks of the effect of a command or a PEEK beat at a read-domain edge
(44_read_port.md R113 to R123), and that every effect meets it. -/

namespace Sys2Proof.Machine

/-- PEEK registers `pk` with base ghost `baseAbs` are fit to stand after an edge from `s` that leaves the read pointer
at `rAbs`. -/
structure PeekInv (s : State) (rAbs : Nat) (pk : PeekRegs) (baseAbs : Nat) : Prop where
  base : pk.base < s.params.ptrMod
  count : pk.n ≤ s.params.cap - 1
  index : pk.active = true → 1 ≤ pk.j ∧ pk.j < pk.n
  behind : pk.active = true → baseAbs + pk.n ≤ s.wvAbs
  position : s.aliasSeen = false → s.inRange → pk.active = true →
    pk.base = baseAbs % s.params.ptrMod ∧ baseAbs ≤ rAbs

/-- An effect moves the read pointer by `k`, no further than the view, and leaves response and PEEK registers in
range. -/
structure EffectInv (s : State) (k : Nat) (e : ReadEffect) : Prop where
  rn : e.rn = (s.rAbs + k) % s.params.ptrMod
  reach : k ≤ s.lag
  data : e.rsp.data < 2 ^ s.params.dataW
  len : e.rsp.len ≤ s.params.cap - 1
  peek : PeekInv s (s.rAbs + k) e.pk e.pkBaseAbs

section Effects

variable {s : State} (h : MachineInv s)
include h

/-- The PEEK registers held are fit wherever the read pointer goes. -/
theorem MachineInv.peekInv (k : Nat) : PeekInv s (s.rAbs + k) s.pk s.pkBaseAbs where
  base := h.pkBase
  count := h.pkCount
  index := h.pkIndex
  behind := h.pkBehind
  position halias _ hactive :=
    (h.pkPosition halias hactive).imp_right fun hle => hle.trans (Nat.le_add_right _ _)

/-- An edge that normalises the read pointer and shows a response. -/
theorem MachineInv.effectInv_normalise {e : ReadEffect} (hrn : e.rn = s.effTail)
    (hdata : e.rsp.data < 2 ^ s.params.dataW) (hlen : e.rsp.len ≤ s.params.cap - 1)
    (hpeek : PeekInv s (s.rAbs + s.skip) e.pk e.pkBaseAbs) : EffectInv s s.skip e :=
  ⟨hrn.trans h.effTail_eq, skip_le_lag s, hdata, hlen, hpeek⟩

theorem MachineInv.effectInv_idle : EffectInv s s.skip (idleEffect s) :=
  h.effectInv_normalise rfl (Nat.two_pow_pos _) (Nat.zero_le _) (h.peekInv _)

theorem MachineInv.effectInv_length : EffectInv s s.skip (lengthEffect s) :=
  h.effectInv_normalise rfl (Nat.two_pow_pos _) h.cnt_le (h.peekInv _)

theorem MachineInv.effectInv_getNth (i : Nat) : EffectInv s s.skip (getNthEffect i s) := by
  unfold getNthEffect
  split
  · exact h.effectInv_normalise rfl (h.readElem_lt _) (Nat.zero_le _) (h.peekInv _)
  · exact h.effectInv_normalise rfl (Nat.mod_lt _ (Nat.two_pow_pos _)) (Nat.zero_le _) (h.peekInv _)

theorem MachineInv.effectInv_getNthChecked (i : Nat) : EffectInv s s.skip (getNthCheckedEffect i s) := by
  unfold getNthCheckedEffect
  split
  · exact h.effectInv_normalise rfl (Nat.two_pow_pos _) (Nat.zero_le _) (h.peekInv _)
  · exact h.effectInv_normalise rfl (h.readElem_lt _) (Nat.zero_le _) (h.peekInv _)

/-- A delete stays within the count, so within the view. -/
theorem MachineInv.effectInv_delete (a : Nat) : EffectInv s (s.skip + min a s.cnt) (deleteEffect a s) where
  rn := by rw [← Nat.add_assoc, ← pgAdd_mod, ← h.effTail_eq, deleteEffect]
  reach := h.skip_add_cnt ▸ Nat.add_le_add_left (Nat.min_le_right _ _) _
  data := Nat.two_pow_pos _
  len := Nat.zero_le _
  peek := h.peekInv _

/-- A PEEK of at least two elements starts at the effective tail and ends within the view. -/
theorem MachineInv.peekInv_start {n : Nat} (h2 : 2 ≤ n) (hn : n ≤ s.cnt) (trunc : Bool) :
    PeekInv s (s.rAbs + s.skip) ⟨true, s.effTail, n, 1, trunc⟩ s.effTailAbs where
  base := h.effTail_eq ▸ Nat.mod_lt _ s.params.ptrMod_pos
  count := hn.trans h.cnt_le
  index _ := ⟨le_rfl, h2⟩
  behind _ := (Nat.add_le_add_left hn _).trans h.effTailAbs_add_cnt_le
  position _ hrange _ := ⟨effTailAbs_eq hrange ▸ h.effTail_eq, (effTailAbs_eq hrange).le⟩

theorem MachineInv.effectInv_peek (a : Nat) : EffectInv s s.skip (peekEffect a s) := by
  have hn : min s.cnt a ≤ s.cnt := Nat.min_le_left _ _
  unfold peekEffect
  generalize min s.cnt a = n at hn ⊢
  dsimp only
  split
  · exact h.effectInv_normalise rfl (Nat.two_pow_pos _) (Nat.zero_le _) (h.peekInv _)
  · refine h.effectInv_normalise rfl (h.readElem_lt _) (hn.trans h.cnt_le) ?_
    dsimp only
    split
    · next h2 => exact h.peekInv_start h2 hn _
    · exact h.peekInv _

/-- A beat leaves the PEEK finished or with a next element to show (R119). -/
theorem MachineInv.effectInv_beat (hactive : s.pk.active = true) : EffectInv s s.skip (beatEffect s) := by
  refine h.effectInv_normalise rfl (h.readElem_lt _) h.pkCount ?_
  have hheld := h.peekInv s.skip
  have hindex := h.pkIndex hactive
  unfold beatEffect
  dsimp only
  split
  · exact ⟨hheld.base, hheld.count, by simp, by simp, by simp⟩
  · next hlast =>
    exact { hheld with index := fun _ => by simp at hlast ⊢; omega }

theorem MachineInv.effectInv_command (i : Instr) : ∃ k, EffectInv s k (commandEffect s i) := by
  cases i with
  | wNop => exact ⟨_, h.effectInv_idle⟩
  | write _ => exact ⟨_, h.effectInv_idle⟩
  | rNop => exact ⟨_, h.effectInv_idle⟩
  | peek a => exact ⟨_, h.effectInv_peek _⟩
  | deleteOldest a => exact ⟨_, h.effectInv_delete _⟩
  | length => exact ⟨_, h.effectInv_length⟩
  | getNth a => exact ⟨_, h.effectInv_getNth _⟩
  | getNthChecked a => exact ⟨_, h.effectInv_getNthChecked _⟩

end Effects

/-! ### Edges of the read domain (R113) -/

section ReadDomain

variable {s : State} (h : MachineInv s)
include h

theorem MachineInv.readCommit_counter (e : ReadEffect) :
    GrayCounter.edge s.params (decide (s.rpBin ≠ s.rBin)) ⟨s.rpBin, s.rpGray⟩ =
      ⟨(readCommit e s).rpAbs % s.params.ptrMod, code s.params ((readCommit e s).rpAbs % s.params.ptrMod)⟩ := by
  rw [h.rpGray_eq, h.rpBin, GrayCounter.edge_mod, readCommit_rpAbs, h.rpBin]
  simp only [decide_eq_true_eq]

theorem MachineInv.readCommit_chainInv (e : ReadEffect) :
    ChainInv s.params (readCommit e s).rpAbs (readCommit e s).rs := by
  rw [readCommit_rpAbs, readCommit_rs]
  split
  · exact h.rpGray_eq ▸ h.rs.sourceMoved
  · exact h.rs

theorem MachineInv.readCommit_published (e : ReadEffect) : (readCommit e s).rpAbs ≤ s.rAbs := by
  rw [readCommit_rpAbs]
  split
  · next hmoves => exact h.rpAbs_lt hmoves
  · exact h.published

theorem MachineInv.wvAbs_le_readCommit (e : ReadEffect) : s.wvAbs ≤ (readCommit e s).wvAbs := by
  rw [State.wvAbs, State.wvAbs, readCommit_ws, h.wGray_eq]
  exact h.ws.viewAbs_le_capture s.draws

theorem MachineInv.readCommit_rAbs_eq {e : ReadEffect} {k : Nat} (he : EffectInv s k e) :
    (readCommit e s).rAbs = s.rAbs + k := by
  rw [readCommit_rAbs, he.rn, h.rBin, pgDist_add_mod _ (he.reach.trans_lt (lag_lt s))]

theorem MachineInv.after_readCommit {e : ReadEffect} {k : Nat} (he : EffectInv s k e) (hr : s.rrstN = true) :
    MachineInv (readCommit e s) := by
  have f := readCommit_frame e s
  have hrAbs := h.readCommit_rAbs_eq he
  have hview := h.wvAbs_le_readCommit e
  have hreach : s.rAbs + k ≤ s.wvAbs := by
    have := he.reach.trans (lag_le s)
    have := h.behindView
    omega
  exact { h with
    rBin := hrAbs ▸ he.rn
    rpBin := congrArg GrayCounter.bin (h.readCommit_counter e)
    rpGray := by rw [readCommit_rpGray, readCommit_rpBin, h.readCommit_counter e, readCommit_params]
    ws := by simpa [h.wGray_eq] using h.ws.capture s.draws
    rs := h.readCommit_chainInv e
    published := (h.readCommit_published e).trans (hrAbs ▸ Nat.le_add_right _ _)
    behindView := hrAbs ▸ hreach.trans hview
    pkBase := he.peek.base
    pkCount := he.peek.count
    pkIndex := he.peek.index
    pkBehind := fun hactive => (he.peek.behind hactive).trans hview
    pkPosition := fun halias hactive => by
      obtain ⟨hseen, hrange⟩ : s.aliasSeen = false ∧ s.inRange := by simpa using halias
      exact hrAbs ▸ he.peek.position hseen hrange hactive
    rspData := he.data
    rspLen := he.len
    inWriteReset := by simpa [f.writeAtReset, f.rpvAbs] using h.inWriteReset
    inReadReset := fun hr' => by simp [hr] at hr' }

theorem MachineInv.after_readEdge {e : ReadEffect} {k : Nat} (he : EffectInv s k e) : MachineInv (readEdge e s) := by
  obtain ⟨-, hs⟩ | ⟨hr, hactive, hs⟩ | ⟨hr, -, hs⟩ := readEdge_cases e s <;> rw [hs]
  · exact h
  · exact h.after_readCommit (h.effectInv_beat hactive) hr
  · exact h.after_readCommit he hr

end ReadDomain

end Sys2Proof.Machine

/-! SUPPORT. Every step keeps the block's invariant (10_state.md R31, 70_reset_and_hazards.md R154 to R158), level A
keeps its own (10_state.md R20), and what reset leaves (R35). -/

namespace Sys2Proof.Machine

/-! ### Reset (70_reset_and_hazards.md R154, R156) -/

section Reset

variable {s : State}

@[simp] theorem writeAtReset_resetRegs (w r : Bool) : (resetRegs w r s).writeAtReset = true := by
  simp [State.writeAtReset]

@[simp] theorem readAtReset_resetRegs (w r : Bool) : (resetRegs w r s).readAtReset = true := by
  simp [State.readAtReset]

/-- A reset of the whole block starts the invariant afresh, whatever the registers held. -/
theorem machineInv_resetRegs (w r : Bool) (h : s.storage.wf s.params.dataW s.params.cap = true) :
    MachineInv (resetRegs w r s) where
  whole := rfl
  storage := h
  wBin := (Nat.zero_mod _).symm
  wGray := rfl
  rBin := (Nat.zero_mod _).symm
  rpBin := (Nat.zero_mod _).symm
  rpGray := rfl
  ws := .atReset s.params
  rs := .atReset s.params
  published := le_rfl
  behindView := Nat.zero_le _
  pkBase := s.params.ptrMod_pos
  pkCount := Nat.zero_le _
  pkIndex := nofun
  pkBehind := nofun
  pkPosition := nofun
  rspData := Nat.two_pow_pos _
  rspLen := Nat.zero_le _
  inWriteReset _ := ⟨writeAtReset_resetRegs w r, rfl, viewAbs_atReset s.params⟩
  inReadReset _ := ⟨readAtReset_resetRegs w r, rfl, rfl, viewAbs_atReset s.params⟩

theorem validCode_of_mem_atReset {p : Params} {g : Nat} (hg : g ∈ (SyncChain.atReset p).stages) :
    validCode p g = true := (ChainInv.atReset p).validCode_of_mem hg

theorem MachineInv.halfReset_assertWriteAlone (h : MachineInv s) : HalfReset (assertWriteAlone s) where
  storage := h.storage
  registers := { h.registerInv with
    wBin := s.params.ptrMod_pos
    wGray := rfl
    rs := fun _ => validCode_of_mem_atReset }
  alone := .inl ⟨rfl, rfl, rfl, by simp [State.writeAtReset]⟩

theorem MachineInv.halfReset_assertReadAlone (h : MachineInv s) : HalfReset (assertReadAlone s) where
  storage := h.storage
  registers := { h.registerInv with
    rBin := s.params.ptrMod_pos
    rpBin := s.params.ptrMod_pos
    rpGray := rfl
    ws := fun _ => validCode_of_mem_atReset
    pkIndex := nofun
    pkCount := Nat.zero_le _ }
  alone := .inr ⟨rfl, rfl, rfl, by simp [State.readAtReset]⟩

/-- The reset pins of a block in no half-asserted reset: the block runs on, is reset, or has one domain's reset asserted
alone. -/
theorem MachineInv.after_setPinsWhole {t : State} {w r : Bool} (h : MachineInv s) (ht : setPinsWhole w r s = .next t) :
    BlockInv t := by
  obtain ⟨t', ht', hcases⟩ := setPinsWhole_cases w r s
  obtain rfl : t' = t := Host.Outcome.next.inj (ht'.symm.trans ht)
  obtain ⟨rfl, -⟩ | ⟨rfl, -⟩ | ⟨rfl, -⟩ | ⟨rfl, hw, hr⟩ := hcases
  · exact .inr h.halfReset_assertWriteAlone
  · exact .inr h.halfReset_assertReadAlone
  · exact .inl (machineInv_resetRegs w r h.storage)
  · refine .inl { h with inWriteReset := fun hw' => h.inWriteReset ?_, inReadReset := fun hr' => h.inReadReset ?_ }
    · exact Bool.eq_false_of_not_eq_true fun hs => by simp [hw hs] at hw'
    · exact Bool.eq_false_of_not_eq_true fun hs => by simp [hr hs] at hr'

end Reset

/-! ### The steps of the agents with no reset half asserted -/

section Agents

variable {s t : State} (h : MachineInv s)
include h

theorem MachineInv.after_exec (i : Instr) (ht : exec i s = .next t) : MachineInv t := by
  obtain rfl := Host.Outcome.next.inj ((exec_eq i s).symm.trans ht)
  cases i.port with
  | producer => exact h.after_writeEdge (commandElement s i)
  | consumer =>
    obtain ⟨k, he⟩ := h.effectInv_command i
    exact h.after_readEdge he

theorem MachineInv.after_wclk {present : Bool} (ht : runFetched .wNop s (fetchW present s) = .next t) :
    MachineInv t := by
  obtain hf | ⟨w, rest, -, -, -, ⟨i, -, hf⟩ | ⟨e, -, hf⟩⟩ := fetchW_cases present s <;> rw [hf] at ht
  · exact h.after_exec .wNop ht
  · exact (h.withDrivers rest s.rProg s.sched s.draws).after_exec i ht
  · cases ht

theorem MachineInv.after_rclk {present : Bool} (ht : runFetched .rNop s (fetchR present s) = .next t) :
    MachineInv t := by
  obtain hf | ⟨w, rest, -, -, -, ⟨i, -, hf⟩ | ⟨e, -, hf⟩⟩ := fetchR_cases present s <;> rw [hf] at ht
  · exact h.after_exec .rNop ht
  · exact (h.withDrivers s.wProg rest s.sched s.draws).after_exec i ht
  · cases ht

/-- A view that moves forward leaves the read pointer and a streaming PEEK behind it. -/
theorem MachineInv.after_syncW2R {target : Option Nat} (ht : syncW2R target s = .next t) : MachineInv t := by
  obtain ⟨hsync, ⟨-, rfl⟩ | ⟨hr, hlow, hhigh, rfl⟩⟩ := syncW2R_next ht
  · exact h
  · generalize target.getD s.wAbs = k at hlow hhigh ⊢
    have hview : s.wvAbs ≤ (s.ws.jump s.params k).viewAbs := (viewAbs_jump k).symm ▸ hlow
    exact { h with
      ws := h.ws.jump hsync hhigh
      behindView := h.behindView.trans hview
      pkBehind := fun hactive => (h.pkBehind hactive).trans hview
      inReadReset := fun hr' => by simp [hr] at hr' }

theorem MachineInv.after_syncR2W {target : Option Nat} (ht : syncR2W target s = .next t) : MachineInv t := by
  obtain ⟨hsync, ⟨-, rfl⟩ | ⟨hw, -, hhigh, rfl⟩⟩ := syncR2W_next ht
  · exact h
  · exact { h with
      rs := h.rs.jump hsync hhigh
      inWriteReset := fun hw' => by simp [hw] at hw' }

/-- Every event but a change of the reset pins keeps the machine's invariant. -/
theorem MachineInv.after_eventStep_of_ne_pins {e : Event} (hpins : ∀ w r, e ≠ .pins w r)
    (ht : eventStep e s = .next t) : MachineInv t := by
  cases e with
  | wclk present => exact h.after_wclk ((unlessPartial_whole _ _ _ h.whole).symm.trans ht)
  | rclk present => exact h.after_rclk ((unlessPartial_whole _ _ _ h.whole).symm.trans ht)
  | syncW2R target => exact h.after_syncW2R ((unlessPartial_whole _ _ _ h.whole).symm.trans ht)
  | syncR2W target => exact h.after_syncR2W ((unlessPartial_whole _ _ _ h.whole).symm.trans ht)
  | reset =>
    obtain rfl := Host.Outcome.next.inj ht
    exact machineInv_resetRegs true true h.storage
  | pins w r => exact absurd rfl (hpins w r)

theorem MachineInv.after_eventStep {e : Event} (ht : eventStep e s = .next t) : BlockInv t := by
  cases e with
  | pins w r =>
    rw [eventStep, setPins, h.whole] at ht
    exact h.after_setPinsWhole ht
  | _ => exact .inl (h.after_eventStep_of_ne_pins (by simp) ht)

end Agents

/-! ### The steps with one reset asserted alone (R156, R157) -/

section HalfAsserted

variable {s t : State}

theorem eventStep_wclk_held (hw : s.wrstN = false) (present : Bool) : eventStep (.wclk present) s = .next s := by
  have hf : fetchW present s = .idle := by
    obtain hf | ⟨_, _, -, hw', -⟩ := fetchW_cases present s
    · exact hf
    · simp [hw] at hw'
  rw [eventStep, unlessPartial_idle (by simp [State.runsBesideReset, hw]), hf, runFetched, exec_eq]
  simp [Instr.port, writeEdge, hw]

theorem eventStep_rclk_held (hr : s.rrstN = false) (present : Bool) : eventStep (.rclk present) s = .next s := by
  have hf : fetchR present s = .idle := by
    obtain hf | ⟨_, _, -, hr', -⟩ := fetchR_cases present s
    · exact hf
    · simp [State.rReady, hr] at hr'
  rw [eventStep, unlessPartial_idle (by simp [State.runsBesideReset, hr]), hf, runFetched, exec_eq]
  simp [Instr.port, readEdge, hr]

theorem eventStep_running_ne_next {port : Port} (hruns : s.runsBesideReset port = true)
    (o : Host.Outcome State Fault Refusal) : unlessPartial port s o ≠ .next t := by
  simp [unlessPartial_running hruns]

/-- From a half-asserted reset a step that answers leaves the state as it is, or completes a reset of the block. -/
theorem eventStep_halfReset (h : HalfReset s) {e : Event} (ht : eventStep e s = .next t) :
    t = s ∨ ∃ w r, t = resetRegs w r s := by
  cases e with
  | wclk present =>
    obtain ⟨-, hw, -⟩ | ⟨halone, -, hw, -⟩ := h.alone
    · exact .inl (Host.Outcome.next.inj (ht.symm.trans (eventStep_wclk_held hw present)))
    · exact absurd ht (eventStep_running_ne_next (by simp [State.runsBesideReset, hw, halone]) _)
  | rclk present =>
    obtain ⟨halone, -, hr, -⟩ | ⟨-, hr, -⟩ := h.alone
    · exact absurd ht (eventStep_running_ne_next (by simp [State.runsBesideReset, hr, halone]) _)
    · exact .inl (Host.Outcome.next.inj (ht.symm.trans (eventStep_rclk_held hr present)))
  | syncW2R target =>
    obtain ⟨halone, -, hr, -⟩ | ⟨-, hr, -⟩ := h.alone
    · exact absurd ht (eventStep_running_ne_next (by simp [State.runsBesideReset, hr, halone]) _)
    · rw [eventStep, unlessPartial_idle (by simp [State.runsBesideReset, hr])] at ht
      obtain ⟨-, ⟨-, hs⟩ | ⟨hr', -⟩⟩ := syncW2R_next ht
      · exact .inl hs
      · simp [hr] at hr'
  | syncR2W target =>
    obtain ⟨-, hw, -⟩ | ⟨halone, -, hw, -⟩ := h.alone
    · rw [eventStep, unlessPartial_idle (by simp [State.runsBesideReset, hw])] at ht
      obtain ⟨-, ⟨-, hs⟩ | ⟨hw', -⟩⟩ := syncR2W_next ht
      · exact .inl hs
      · simp [hw] at hw'
    · exact absurd ht (eventStep_running_ne_next (by simp [State.runsBesideReset, hw, halone]) _)
  | reset => exact .inr ⟨true, true, (Host.Outcome.next.inj ht).symm⟩
  | pins w r =>
    obtain ⟨port, halone⟩ : ∃ port, s.resetAlone = some port :=
      h.alone.elim (fun hp => ⟨_, hp.1⟩) fun hc => ⟨_, hc.1⟩
    rw [eventStep, setPins_half _ w r port halone] at ht
    obtain ⟨-, -, hs⟩ | ⟨-, -, hs⟩ | ⟨-, -, hs⟩ := setPinsHalf_cases w r s <;> rw [hs] at ht
    · exact .inr ⟨false, false, (Host.Outcome.next.inj ht).symm⟩
    · exact .inl (Host.Outcome.next.inj ht).symm
    · cases ht

theorem HalfReset.after_eventStep (h : HalfReset s) {e : Event} (ht : eventStep e s = .next t) : BlockInv t := by
  obtain rfl | ⟨w, r, rfl⟩ := eventStep_halfReset h ht
  · exact .inr h
  · exact .inl (machineInv_resetRegs w r h.storage)

end HalfAsserted

/-! ### One step of the machine -/

section BlockStep

variable {s : State}

/-- Taking the next event changes only the schedule and the draws. -/
theorem afterEvent_eq (s : State) : ∃ sched draws, afterEvent s = { s with sched := sched, draws := draws } := by
  unfold afterEvent
  split
  · exact ⟨_, _, rfl⟩
  · exact ⟨_, _, rfl⟩

theorem MachineInv.at_afterEvent (h : MachineInv s) : MachineInv (afterEvent s) := by
  obtain ⟨sched, draws, he⟩ := afterEvent_eq s
  exact he ▸ h.withDrivers s.wProg s.rProg sched draws

theorem HalfReset.at_afterEvent (h : HalfReset s) : HalfReset (afterEvent s) := by
  obtain ⟨sched, draws, he⟩ := afterEvent_eq s
  exact he ▸ ⟨h.storage, { h.registers with }, h.alone⟩

theorem BlockInv.registerInv (h : BlockInv s) : RegisterInv s := h.elim (·.registerInv) (·.registers)

theorem BlockInv.after_step {t : State} (h : BlockInv s) (ht : step s = .next t) : BlockInv t :=
  h.elim (·.at_afterEvent.after_eventStep ht) (·.at_afterEvent.after_eventStep ht)

end BlockStep

/-- Settles O59: each kind of event keeps the invariant by its own lemma, and the invariant holds R31's. -/
theorem stepKeepsMachineInv : Obligations.StepKeepsMachineInv := fun _ _ h ht =>
  ⟨h.registerInv, h.after_step ht, (h.after_step ht).registerInv,
    fun hm hpins => hm.at_afterEvent.after_eventStep_of_ne_pins hpins ht⟩

/-- Settles O58: the state after reset is the reset of itself, which starts the invariant afresh. -/
theorem machineInvHoldsAtReset : Obligations.MachineInvHoldsAtReset := by
  have hreset (p : Params) (storage : Storage) (wProg rProg : List Nat) (sched : List Event) (draws : Nat)
      (h : storage.wf p.dataW p.cap = true) : MachineInv (State.afterReset p storage wProg rProg sched draws) :=
    machineInv_resetRegs (s := State.afterReset p storage wProg rProg sched draws) true true h
  exact ⟨hreset _ _ _ _ _ _ (Storage.wf_nil _ _), hreset⟩

/-! ### Level A (10_state.md R16 to R20) -/

theorem RefState.occ_of_zero {a : RefState} (hhead : a.head = 0) (htail : a.tail = 0) : a.occ = 0 := by
  simp [RefState.occ, hhead, htail]

/-- Settles O20: the reset registers field by field; the level-A indices are counts that are 0, mod `cap`. -/
theorem resetGivesEveryRegisterItsValue : Obligations.ResetGivesEveryRegisterItsValue := by
  intro s
  have htAbs : (resetBlock s).tAbs = 0 := by simp [State.tAbs, resetBlock]
  have hhead : (resetBlock s).levelA.head = 0 := Nat.zero_mod _
  have htail : (resetBlock s).levelA.tail = 0 := by simp [State.levelA, htAbs]
  have hview : (SyncChain.atReset s.params).viewAbs = 0 := viewAbs_atReset s.params
  exact ⟨resetBlock s, rfl, rfl, rfl, rfl, rfl, rfl, rfl, rfl, rfl, rfl, rfl, rfl, rfl, hview, hview, rfl, rfl, rfl,
    rfl, rfl, rfl, hhead, htail, RefState.occ_of_zero hhead htail, Nat.zero_sub _⟩

namespace RefState

variable {a : RefState} (h : a.Inv)
include h

theorem Inv.mod_cap_lt (n : Nat) : n % a.cap < a.cap := Nat.mod_lt _ (Nat.zero_lt_two.trans_le h.1)

theorem Inv.occ_le : a.occ ≤ a.cap - 1 := Nat.le_sub_one_of_lt (h.mod_cap_lt _)

/-- `occ` without the modulo: the head is at or ahead of the tail, or has wrapped round. -/
theorem Inv.occ_eq : a.occ = if a.tail ≤ a.head then a.head - a.tail else a.head + a.cap - a.tail := by
  obtain ⟨-, hhead, htail⟩ := h
  rw [occ, Nat.mod_eq_of_lt htail]
  split
  · next hle =>
    rw [← Nat.add_sub_assoc htail.le, Nat.sub_add_comm hle, Nat.add_mod_right]
    exact Nat.mod_eq_of_lt ((Nat.sub_le _ _).trans_lt hhead)
  · next hlt =>
    rw [← Nat.add_sub_assoc htail.le]
    exact Nat.mod_eq_of_lt (by omega)

theorem Inv.head_eq_tail_iff : a.head = a.tail ↔ a.occ = 0 := by
  rw [h.occ_eq]
  obtain ⟨-, hhead, htail⟩ := h
  split <;> omega

theorem Inv.after_write1 (v : Nat) : (a.write1 v).Inv := by
  have ⟨hcap, _, htail⟩ := h
  refine ⟨hcap, h.mod_cap_lt _, ?_⟩
  dsimp only [RefState.write1]
  split
  · exact h.mod_cap_lt _
  · exact htail

theorem Inv.after_write (vs : List Nat) : (a.write vs).Inv := by
  induction vs generalizing a with
  | nil => exact h
  | cons v rest ih => exact ih (h.after_write1 v)

theorem Inv.after_deleteOldest (k : Nat) : (a.deleteOldest k).Inv := by
  have ⟨hcap, hhead, _⟩ := h
  refine ⟨hcap, ?_, h.mod_cap_lt _⟩
  dsimp only [RefState.deleteOldest]
  split
  · exact h.mod_cap_lt _
  · exact hhead

end RefState

/-- Settles O51: the indices are remainders mod `cap`, and `occ` counts from tail to head. -/
theorem levelAKeepsItsInvariants : Obligations.LevelAKeepsItsInvariants := fun _ v k vs h =>
  ⟨h.occ_le, h.head_eq_tail_iff, h.after_write1 v, h.after_write vs, h.after_deleteOldest k⟩

end Sys2Proof.Machine

/-! SUPPORT. What each agent's step can do, said once, and with it who may move a pointer or a view (20_memory.md R48,
R50) and what the consumer's reads leave of level A (R43). -/

namespace Sys2Proof.Machine

/-! ### The steps of the agents, inverted (20_memory.md R46, 45_synchronizer.md R129, R130) -/

/-- A word of a port decodes to a command of that port (30_encoding.md R68). -/
theorem decode_port {p : Params} {port : Port} {w : Nat} {i : Instr} (h : decode p port w = .ok i) : i.port = port := by
  unfold decode at h
  split at h
  · cases port with
    | producer => simp only [decodeProducer] at h; split at h <;> cases h <;> rfl
    | consumer => simp only [decodeConsumer] at h; split at h <;> cases h <;> rfl
  · cases h

/-- What an agent's event does to a state whose drivers and schedule have already moved on: an edge of the event's clock
with some command of its port, or a move of the event's view, held in reset and else to a value up to its source's. -/
inductive AgentStep (s : State) : Event → State → Prop
  | wclk (present : Bool) (i : Instr) (hi : i.port = .producer) :
      AgentStep s (.wclk present) (writeEdge (commandElement s i) s)
  | rclk (present : Bool) (i : Instr) (hi : i.port = .consumer) :
      AgentStep s (.rclk present) (readEdge (commandEffect s i) s)
  | heldW2R (target : Option Nat) (hsync : s.params.sync = .abstract) (hr : s.rrstN = false) :
      AgentStep s (.syncW2R target) s
  | syncW2R (target : Option Nat) (k : Nat) (hsync : s.params.sync = .abstract) (hr : s.rrstN = true)
      (hlow : s.wvAbs ≤ k) (hhigh : k ≤ s.wAbs) : AgentStep s (.syncW2R target) { s with ws := s.ws.jump s.params k }
  | heldR2W (target : Option Nat) (hsync : s.params.sync = .abstract) (hw : s.wrstN = false) :
      AgentStep s (.syncR2W target) s
  | syncR2W (target : Option Nat) (k : Nat) (hsync : s.params.sync = .abstract) (hw : s.wrstN = true)
      (hlow : s.rpvAbs ≤ k) (hhigh : k ≤ s.rpAbs) : AgentStep s (.syncR2W target) { s with rs := s.rs.jump s.params k }

section Inversion

variable {s t : State}

theorem exec_producer {i : Instr} (hi : i.port = .producer) (ht : exec i s = .next t) :
    t = writeEdge (commandElement s i) s := by
  rw [exec_eq, hi] at ht
  exact (Host.Outcome.next.inj ht).symm

theorem exec_consumer {i : Instr} (hi : i.port = .consumer) (ht : exec i s = .next t) :
    t = readEdge (commandEffect s i) s := by
  rw [exec_eq, hi] at ht
  exact (Host.Outcome.next.inj ht).symm

theorem unlessPartial_next {port : Port} {o : Host.Outcome State Fault Refusal}
    (h : unlessPartial port s o = .next t) : o = .next t := by
  unfold unlessPartial at h
  split at h
  · cases h
  · exact h

/-- A `wclk` edge that answers runs a producer command, with a word of the producer's list taken or not. -/
theorem runFetched_fetchW_next {present : Bool} (ht : runFetched .wNop s (fetchW present s) = .next t) :
    ∃ wProg i, i.port = .producer ∧ exec i { s with wProg := wProg } = .next t := by
  obtain hf | ⟨w, rest, -, -, -, ⟨i, hi, hf⟩ | ⟨e, -, hf⟩⟩ := fetchW_cases present s <;> rw [hf] at ht
  · exact ⟨s.wProg, .wNop, rfl, ht⟩
  · exact ⟨rest, i, decode_port hi, ht⟩
  · cases ht

/-- An `rclk` edge that answers runs a consumer command, with a word of the consumer's list taken or not. -/
theorem runFetched_fetchR_next {present : Bool} (ht : runFetched .rNop s (fetchR present s) = .next t) :
    ∃ rProg i, i.port = .consumer ∧ exec i { s with rProg := rProg } = .next t := by
  obtain hf | ⟨w, rest, -, -, -, ⟨i, hi, hf⟩ | ⟨e, -, hf⟩⟩ := fetchR_cases present s <;> rw [hf] at ht
  · exact ⟨s.rProg, .rNop, rfl, ht⟩
  · exact ⟨rest, i, decode_port hi, ht⟩
  · cases ht

theorem eventStep_agentStep {e : Event} (hagent : e.isAgentStep = true) (ht : eventStep e s = .next t) :
    ∃ wProg rProg, AgentStep { s with wProg := wProg, rProg := rProg } e t := by
  cases e with
  | wclk present =>
    obtain ⟨wProg, i, hi, hexec⟩ := runFetched_fetchW_next (unlessPartial_next ht)
    obtain rfl := exec_producer hi hexec
    exact ⟨wProg, s.rProg, .wclk present i hi⟩
  | rclk present =>
    obtain ⟨rProg, i, hi, hexec⟩ := runFetched_fetchR_next (unlessPartial_next ht)
    obtain rfl := exec_consumer hi hexec
    exact ⟨s.wProg, rProg, .rclk present i hi⟩
  | syncW2R target =>
    obtain ⟨hsync, ⟨hr, rfl⟩ | ⟨hr, hlow, hhigh, rfl⟩⟩ := syncW2R_next (unlessPartial_next ht)
    · exact ⟨t.wProg, t.rProg, .heldW2R target hsync hr⟩
    · exact ⟨s.wProg, s.rProg, .syncW2R target _ hsync hr hlow hhigh⟩
  | syncR2W target =>
    obtain ⟨hsync, ⟨hw, rfl⟩ | ⟨hw, hlow, hhigh, rfl⟩⟩ := syncR2W_next (unlessPartial_next ht)
    · exact ⟨t.wProg, t.rProg, .heldR2W target hsync hw⟩
    · exact ⟨s.wProg, s.rProg, .syncR2W target _ hsync hw hlow hhigh⟩
  | reset => cases hagent
  | pins w r => cases hagent

theorem step_agentStep (hagent : (nextEvent s).isAgentStep = true) (ht : step s = .next t) :
    ∃ wProg rProg sched draws,
      AgentStep { s with wProg := wProg, rProg := rProg, sched := sched, draws := draws } (nextEvent s) t := by
  obtain ⟨sched, draws, hs⟩ := afterEvent_eq s
  obtain ⟨wProg, rProg, hstep⟩ := eventStep_agentStep hagent ht
  rw [hs] at hstep
  exact ⟨wProg, rProg, sched, draws, hstep⟩

end Inversion

/-! ### Each domain moves only its own pointers (20_memory.md R50) -/

section OwnDomain

/-- The write pointer, its ghost and the storage are the same in both states. -/
abbrev SameWriteSide (s t : State) : Prop :=
  t.wBin = s.wBin ∧ t.wGray = s.wGray ∧ t.storage = s.storage ∧ t.wAbs = s.wAbs

/-- The read and published pointers, their ghosts, the PEEK and the response registers are the same in both states. -/
abbrev SameReadSide (s t : State) : Prop :=
  t.rBin = s.rBin ∧ t.rpBin = s.rpBin ∧ t.rpGray = s.rpGray ∧ t.pk = s.pk ∧ t.rsp = s.rsp ∧ t.rAbs = s.rAbs ∧
    t.rpAbs = s.rpAbs

theorem SameWriteSide.refl (s : State) : SameWriteSide s s := ⟨rfl, rfl, rfl, rfl⟩

theorem SameReadSide.refl (s : State) : SameReadSide s s := ⟨rfl, rfl, rfl, rfl, rfl, rfl, rfl⟩

variable (s : State)

theorem writeEdge_readSide (cmd : Option Nat) :
    SameReadSide s (writeEdge cmd s) ∧ (writeEdge cmd s).ws.stages = s.ws.stages := by
  obtain ⟨-, he⟩ | ⟨-, he⟩ := writeEdge_cases cmd s <;> rw [he]
  · exact ⟨.refl s, rfl⟩
  · have f := writeStep_frame cmd s
    exact ⟨⟨f.rBin, f.rpBin, f.rpGray, f.pk, f.rsp, f.rAbs, f.rpAbs⟩, f.wsStages⟩

theorem readCommit_writeSide (e : ReadEffect) :
    SameWriteSide s (readCommit e s) ∧ (readCommit e s).rs.stages = s.rs.stages :=
  have f := readCommit_frame e s
  ⟨⟨f.wBin, f.wGray, f.storage, f.wAbs⟩, f.rsStages⟩

theorem readEdge_writeSide (e : ReadEffect) :
    SameWriteSide s (readEdge e s) ∧ (readEdge e s).rs.stages = s.rs.stages := by
  obtain ⟨-, he⟩ | ⟨-, -, he⟩ | ⟨-, -, he⟩ := readEdge_cases e s <;> rw [he]
  · exact ⟨.refl s, rfl⟩
  · exact readCommit_writeSide s _
  · exact readCommit_writeSide s e

end OwnDomain

section OwnAgent

variable {s t : State} {e : Event} (h : AgentStep s e t)
include h

theorem AgentStep.sameWriteSide (he : ∀ b, e ≠ .wclk b) : SameWriteSide s t := by
  cases h with
  | wclk present => exact absurd rfl (he present)
  | rclk => exact (readEdge_writeSide s _).1
  | _ => exact SameWriteSide.refl s

theorem AgentStep.sameReadSide (he : ∀ b, e ≠ .rclk b) : SameReadSide s t := by
  cases h with
  | wclk => exact (writeEdge_readSide s _).1
  | rclk present => exact absurd rfl (he present)
  | _ => exact SameReadSide.refl s

theorem AgentStep.wsStages (hedge : ∀ b, e ≠ .rclk b) (hsync : ∀ k, e ≠ .syncW2R k) : t.ws.stages = s.ws.stages := by
  cases h with
  | wclk => exact (writeEdge_readSide s _).2
  | rclk present => exact absurd rfl (hedge present)
  | syncW2R target => exact absurd rfl (hsync target)
  | _ => rfl

theorem AgentStep.rsStages (hedge : ∀ b, e ≠ .wclk b) (hsync : ∀ k, e ≠ .syncR2W k) : t.rs.stages = s.rs.stages := by
  cases h with
  | wclk present => exact absurd rfl (hedge present)
  | rclk => exact (readEdge_writeSide s _).2
  | syncR2W target => exact absurd rfl (hsync target)
  | _ => rfl

end OwnAgent

/-- Settles O46: in each case of an agent's step what the agent does not own is left as it was. -/
theorem onlyTheOwnDomainMovesAPointer : Obligations.OnlyTheOwnDomainMovesAPointer := by
  intro s t hagent ht
  obtain ⟨wProg, rProg, sched, draws, hstep⟩ := step_agentStep hagent ht
  exact ⟨hstep.sameWriteSide, hstep.sameReadSide, hstep.wsStages, hstep.rsStages⟩

/-! ### No agent takes a view back (20_memory.md R48, 45_synchronizer.md R126) -/

/-- Neither view nor the published pointer is behind where it was. -/
abbrev ViewsAdvance (s t : State) : Prop := s.wvAbs ≤ t.wvAbs ∧ s.rpvAbs ≤ t.rpvAbs ∧ s.rpAbs ≤ t.rpAbs

theorem ViewsAdvance.refl (s : State) : ViewsAdvance s s := ⟨le_rfl, le_rfl, le_rfl⟩

theorem rpAbs_le_readCommit (e : ReadEffect) (s : State) : s.rpAbs ≤ (readCommit e s).rpAbs := by
  rw [readCommit_rpAbs]
  split
  · exact Nat.le_succ _
  · exact le_rfl

section Views

variable {s : State} (h : MachineInv s)
include h

theorem MachineInv.rpvAbs_le_writeStep (cmd : Option Nat) : s.rpvAbs ≤ (writeStep cmd s).rpvAbs := by
  rw [State.rpvAbs, State.rpvAbs, writeStep_rs, h.rpGray_eq]
  exact h.rs.viewAbs_le_capture s.draws

theorem MachineInv.viewsAdvance_writeEdge (cmd : Option Nat) : ViewsAdvance s (writeEdge cmd s) := by
  obtain ⟨-, he⟩ | ⟨-, he⟩ := writeEdge_cases cmd s <;> rw [he]
  · exact .refl s
  · exact ⟨(writeStep_frame cmd s).wvAbs.ge, h.rpvAbs_le_writeStep cmd, le_rfl⟩

theorem MachineInv.viewsAdvance_readCommit (e : ReadEffect) : ViewsAdvance s (readCommit e s) :=
  ⟨h.wvAbs_le_readCommit e, (readCommit_frame e s).rpvAbs.ge, rpAbs_le_readCommit e s⟩

theorem MachineInv.viewsAdvance_readEdge (e : ReadEffect) : ViewsAdvance s (readEdge e s) := by
  obtain ⟨-, he⟩ | ⟨-, -, he⟩ | ⟨-, -, he⟩ := readEdge_cases e s <;> rw [he]
  · exact .refl s
  · exact h.viewsAdvance_readCommit _
  · exact h.viewsAdvance_readCommit e

theorem MachineInv.viewsAdvance_agentStep {e : Event} {t : State} (ht : AgentStep s e t) : ViewsAdvance s t := by
  cases ht with
  | wclk => exact h.viewsAdvance_writeEdge _
  | rclk => exact h.viewsAdvance_readEdge _
  | heldW2R => exact .refl _
  | syncW2R _ k _ _ hlow => exact ⟨hlow.trans_eq (viewAbs_jump k).symm, le_rfl, le_rfl⟩
  | heldR2W => exact .refl _
  | syncR2W _ k _ _ hlow => exact ⟨le_rfl, hlow.trans_eq (viewAbs_jump k).symm, le_rfl⟩

/-- Every agent's step keeps the machine's invariant: only the reset pins can leave it. -/
theorem MachineInv.after_agentStep {t : State} (hagent : (nextEvent s).isAgentStep = true) (ht : step s = .next t) :
    MachineInv t := by
  refine h.at_afterEvent.after_eventStep_of_ne_pins (fun w r he => ?_) ht
  rw [he] at hagent
  cases hagent

end Views

/-- Settles O42: no agent's step takes a view back, and the invariant it keeps puts both views behind their sources. -/
theorem viewsNeverGoBack : Obligations.ViewsNeverGoBack := by
  intro s t hinv hagent ht
  obtain ⟨wProg, rProg, sched, draws, hstep⟩ := step_agentStep hagent ht
  obtain ⟨hwv, hrpv, hrp⟩ := (hinv.withDrivers wProg rProg sched draws).viewsAdvance_agentStep hstep
  have hnext := hinv.after_agentStep hagent ht
  exact ⟨hwv, hnext.ws.viewAbs_le, hrpv, hnext.rs.viewAbs_le, hrp⟩

/-! ### Reads leave level A as it is (20_memory.md R43, 44_read_port.md R113) -/

section LevelA

variable {s : State} (h : MachineInv s)
include h

/-- Normalisation never passes the level-A tail, whatever the view: it stops `cap - 1` behind the view at most, and the
view is not ahead of the writes. -/
theorem MachineInv.rAbs_add_skip_le_tAbs : s.rAbs + s.skip ≤ s.tAbs := by
  have hlag := lag_le s
  have hview : s.wvAbs ≤ s.wAbs := h.ws.viewAbs_le
  unfold State.skip State.tAbs
  omega

/-- An edge that only normalises the read pointer leaves the level-A tail. -/
theorem MachineInv.tAbs_readCommit {e : ReadEffect} (he : EffectInv s s.skip e) : (readCommit e s).tAbs = s.tAbs := by
  have hskip := h.rAbs_add_skip_le_tAbs
  rw [State.tAbs, h.readCommit_rAbs_eq he, readCommit_wAbs, readCommit_params]
  unfold State.tAbs at hskip ⊢
  omega

theorem MachineInv.levelA_readCommit {e : ReadEffect} (he : EffectInv s s.skip e) :
    (readCommit e s).levelA = s.levelA ∧ (readCommit e s).occA = s.occA := by
  simp [State.levelA, State.occA, h.tAbs_readCommit he]

/-- Every command but DELETE_OLDEST only normalises the read pointer. -/
theorem MachineInv.effectInv_command_of_ne_delete {i : Instr} (hi : ∀ a, i ≠ .deleteOldest a) :
    EffectInv s s.skip (commandEffect s i) := by
  cases i with
  | wNop => exact h.effectInv_idle
  | write _ => exact h.effectInv_idle
  | rNop => exact h.effectInv_idle
  | peek a => exact h.effectInv_peek _
  | deleteOldest a => exact absurd rfl (hi a)
  | length => exact h.effectInv_length
  | getNth a => exact h.effectInv_getNth _
  | getNthChecked a => exact h.effectInv_getNthChecked _

end LevelA

/-- Settles O55: the beat of a streaming PEEK and every command but DELETE_OLDEST only normalise the read pointer. -/
theorem readsLeaveLevelAUnchanged : Obligations.ReadsLeaveLevelAUnchanged := by
  intro s i hinv hr hi hreads
  refine ⟨readEdge (commandEffect s i) s, by rw [exec_eq, hi], ?_⟩
  obtain ⟨hr', -⟩ | ⟨-, hactive, he⟩ | ⟨-, hidle, he⟩ := readEdge_cases (commandEffect s i) s
  · simp [hr] at hr'
  · exact he ▸ hinv.levelA_readCommit (hinv.effectInv_beat hactive)
  · have hkeeps : ∀ k, i ≠ .deleteOldest k := hreads.resolve_right (by simp [hidle])
    exact he ▸ hinv.levelA_readCommit (hinv.effectInv_command_of_ne_delete hkeeps)

end Sys2Proof.Machine

/-! SUPPORT. Command words by their two fields (30_encoding.md R60 to R68), and what the assembler makes of a line of
one command (R69). -/

namespace Sys2Proof.Machine

/-! ### The fields of a word (R60, R61) -/

section Fields

variable {p : Params} {port : Port} {op field : Nat}

theorem opField_word (hfield : field < 2 ^ fieldWidth p port) :
    opField p port (op * 2 ^ fieldWidth p port + field) = op := by
  rw [opField, Nat.mul_comm, Nat.mul_add_div (Nat.two_pow_pos _), Nat.div_eq_of_lt hfield, Nat.add_zero]

theorem lowField_word (hfield : field < 2 ^ fieldWidth p port) :
    lowField p port (op * 2 ^ fieldWidth p port + field) = field :=
  (Nat.mul_add_mod_self_right ..).trans (Nat.mod_eq_of_lt hfield)

theorem opField_mul_add_lowField (w : Nat) : opField p port w * 2 ^ fieldWidth p port + lowField p port w = w :=
  Nat.div_add_mod' w _

theorem lowField_lt (w : Nat) : lowField p port w < 2 ^ fieldWidth p port := Nat.mod_lt _ (Nat.two_pow_pos _)

/-- A word fits its port where its fields do (R68). -/
theorem word_lt (hop : op < 2 ^ opWidth port) (hfield : field < 2 ^ fieldWidth p port) :
    op * 2 ^ fieldWidth p port + field < 2 ^ wordWidth p port :=
  calc op * 2 ^ fieldWidth p port + field
      < (op + 1) * 2 ^ fieldWidth p port := by rw [Nat.succ_mul]; exact Nat.add_lt_add_left hfield _
    _ ≤ 2 ^ opWidth port * 2 ^ fieldWidth p port := Nat.mul_le_mul_right _ hop
    _ = 2 ^ wordWidth p port := by rw [wordWidth, Nat.pow_add, Nat.mul_comm]

end Fields

/-! ### The decoder by fields (R64 to R66) -/

/-- The opcode map of a port. -/
def decodeFields (port : Port) (op field : Nat) : Except DecodeError Instr :=
  match port with
  | .producer => decodeProducer op field
  | .consumer => decodeConsumer op field

theorem decode_of_lt {p : Params} {port : Port} {w : Nat} (h : w < 2 ^ wordWidth p port) :
    decode p port w = decodeFields port (opField p port w) (lowField p port w) := by
  unfold decode
  rw [if_pos h]
  cases port <;> rfl

theorem decode_word {p : Params} {port : Port} {op field : Nat} (hop : op < 2 ^ opWidth port)
    (hfield : field < 2 ^ fieldWidth p port) :
    decode p port (op * 2 ^ fieldWidth p port + field) = decodeFields port op field := by
  rw [decode_of_lt (word_lt hop hfield), opField_word hfield, lowField_word hfield]

/-- A word that decodes fits its port's wires (R68). -/
theorem lt_of_decode_ok {p : Params} {port : Port} {w : Nat} {i : Instr} (h : decode p port w = .ok i) :
    w < 2 ^ wordWidth p port := by
  by_contra hw
  unfold decode at h
  rw [if_neg hw] at h
  cases h

theorem decodeFields_opcode (i : Instr) : decodeFields i.port (opcode i) (operandField i) = .ok i := by
  cases i <;> rfl

/-- The opcode map inverted: the opcode is the command's, and so is the field where the command does not ignore it. -/
theorem decodeFields_ok {port : Port} {op field : Nat} {i : Instr} (h : decodeFields port op field = .ok i) :
    op = opcode i ∧
      (operandField i = field ∨ ((i = .wNop ∨ i = .rNop ∨ i = .length) ∧ operandField i = 0)) := by
  cases port with
  | producer =>
    simp only [decodeFields, decodeProducer] at h
    split at h <;> cases h <;> simp [opcode, operandField]
  | consumer =>
    simp only [decodeFields, decodeConsumer] at h
    split at h <;> cases h <;> simp [opcode, operandField]

theorem fieldsFit (i : Instr) : Laws.FieldsFit.Statement i := by
  cases i with
  | wNop => exact Laws.FieldsFit.wNop
  | write v => exact Laws.FieldsFit.write v
  | rNop => exact Laws.FieldsFit.rNop
  | peek a => exact Laws.FieldsFit.peek a
  | deleteOldest a => exact Laws.FieldsFit.deleteOldest a
  | length => exact Laws.FieldsFit.length
  | getNth a => exact Laws.FieldsFit.getNth a
  | getNthChecked a => exact Laws.FieldsFit.getNthChecked a

/-- Nothing but the operand's width makes a command well formed (R62, R63). -/
theorem wellFormed_iff (p : Params) (i : Instr) :
    i.wellFormed p = true ↔ operandField i < 2 ^ fieldWidth p i.port := by
  refine ⟨fun h => (fieldsFit i p h).2, fun h => ?_⟩
  cases i with
  | wNop | rNop | length => rfl
  | write | peek | deleteOldest | getNth | getNthChecked => exact decide_eq_true h

/-- Settles O1: the canonical word is written by its fields, both fit, and the opcode map reads them back. -/
theorem decodeOfEncodeIsTheCommand : Obligations.DecodeOfEncodeIsTheCommand := by
  intro p i hi
  obtain ⟨hop, hfield⟩ := fieldsFit i p hi
  exact ⟨word_lt hop hfield, (decode_word hop hfield).trans (decodeFields_opcode i)⟩

/-- Settles O2: the opcode map inverted, on the two fields the word is made of. -/
theorem decodedWordHasTheCommandsFields : Obligations.DecodedWordHasTheCommandsFields := by
  intro p port w i h
  have hw := lt_of_decode_ok h
  have hsplit := opField_mul_add_lowField (p := p) (port := port) w
  obtain rfl := decode_port h
  rw [decode_of_lt hw] at h
  obtain ⟨hop, hfield⟩ := decodeFields_ok h
  have hfits : operandField i < 2 ^ fieldWidth p i.port := by
    obtain hf | ⟨-, hf⟩ := hfield <;> rw [hf]
    · exact lowField_lt w
    · exact Nat.two_pow_pos _
  refine ⟨rfl, (wellFormed_iff p i).2 hfits, hw, hop, ?_⟩
  rw [encode, ← hop]
  obtain hf | ⟨hi, hf⟩ := hfield
  · exact .inl (hf ▸ hsplit)
  · exact .inr ⟨hi, hf ▸ Nat.eq_sub_of_add_eq hsplit⟩

/-- Settles O3: the four reserved opcodes fit their fields and have no row in the opcode maps. -/
theorem reservedOpcodesAreRefused : Obligations.ReservedOpcodesAreRefused := by
  intro p port op field hop hfield
  obtain ⟨rfl, rfl | rfl⟩ | ⟨rfl, rfl | rfl⟩ := hop
  · exact decode_word (by decide) hfield
  · exact decode_word (by decide) hfield
  · exact decode_word (by decide) hfield
  · exact decode_word (by decide) hfield

/-- Settles O4: the opcode map drops the field of the three commands, and their canonical field is zero. -/
theorem ignoredFieldsDoNotMatter : Obligations.IgnoredFieldsDoNotMatter := by
  intro p data arg hdata harg
  have hwNop : decode p .producer (0 * 2 ^ p.dataW + data) = .ok .wNop := decode_word (by decide) hdata
  have hrNop : decode p .consumer (0 * 2 ^ p.argW + arg) = .ok .rNop := decode_word (by decide) harg
  rw [Nat.zero_mul, Nat.zero_add] at hwNop hrNop
  exact ⟨hwNop, hrNop, decode_word (by decide) harg, Nat.zero_mul _, Nat.zero_mul _, rfl⟩

/-- Settles O5: the ten words are evaluated. -/
theorem wordsOfTheTableDecode : Obligations.WordsOfTheTableDecode := by
  unfold Obligations.WordsOfTheTableDecode
  decide

/-! ### A line of one command (R69) -/

section OneCommand

variable {p : Params} {l : AsmLine} {i : Instr} (hl : l.commands p = .ok [i])
include hl

theorem assemble_of_fits (hi : operandField i < 2 ^ fieldWidth p i.port) : assemble p l = .ok [encode p i] := by
  simp [assemble, hl, encodeAll, (wellFormed_iff p i).2 hi]

theorem assemble_of_not_fits (hi : 2 ^ fieldWidth p i.port ≤ operandField i) :
    assemble p l = .error (.operandTooLarge i) := by
  have hnot : ¬ i.wellFormed p = true := fun h => Nat.not_lt.2 hi ((wellFormed_iff p i).1 h)
  simp [assemble, hl, encodeAll, hnot]

end OneCommand

theorem encode_of_opcode_one (p : Params) {i : Instr} (hi : opcode i = 1) :
    encode p i = 2 ^ fieldWidth p i.port + operandField i := by rw [encode, hi, Nat.one_mul]

/-- Settles O6: each of the five forms is a line of one command, well formed exactly where its operand fits. -/
theorem assemblerRejectsWhatDoesNotFit : Obligations.AssemblerRejectsWhatDoesNotFit := by
  intro p v a
  refine ⟨fun h => ?_, fun h => assemble_of_not_fits rfl h, fun h => ⟨?_, ?_, ?_, ?_⟩, fun h =>
    ⟨assemble_of_not_fits rfl h, assemble_of_not_fits rfl h, assemble_of_not_fits rfl h, assemble_of_not_fits rfl h⟩⟩
  · exact encode_of_opcode_one p (i := .write v) rfl ▸ assemble_of_fits rfl h
  · exact encode_of_opcode_one p (i := .peek a) rfl ▸ assemble_of_fits rfl h
  · exact assemble_of_fits (i := .deleteOldest a) rfl h
  · exact assemble_of_fits (i := .getNth a) rfl h
  · exact assemble_of_fits (i := .getNthChecked a) rfl h

end Sys2Proof.Machine

/-! SUPPORT. What an edge runs: the command its port accepts, a NOP of the port, or the refusal of a word that is no
command (30_encoding.md R58, R59, R66, 45_synchronizer.md R130). -/

namespace Sys2Proof.Machine

/-! ### What a port fetches (R58, R59) -/

section Fetching

variable {s : State}

theorem accept_of_ok {p : Params} {port : Port} {w : Nat} {i : Instr} (h : decode p port w = .ok i) (s : State) :
    accept port w p s = .command i s := by rw [accept, h]

theorem accept_of_error {p : Params} {port : Port} {w : Nat} {e : DecodeError} (h : decode p port w = .error e)
    (s : State) : accept port w p s = .refused (refusalOf e) := by rw [accept, h]

theorem fetchW_ready {w : Nat} {rest : List Nat} (hw : s.wrstN = true) (hprog : s.wProg = w :: rest) :
    fetchW true s = accept .producer w s.params { s with wProg := rest } := by simp [fetchW, State.wReady, hw, hprog]

theorem fetchR_ready {w : Nat} {rest : List Nat} (hr : s.rrstN = true) (hpk : s.pk.active = false)
    (hprog : s.rProg = w :: rest) : fetchR true s = accept .consumer w s.params { s with rProg := rest } := by
  simp [fetchR, State.rReady, hr, hpk, hprog]

theorem fetchW_idle {present : Bool} (h : present = false ∨ s.wProg = [] ∨ s.wrstN = false) :
    fetchW present s = .idle := by
  refine (fetchW_cases present s).resolve_right ?_
  rintro ⟨w, rest, hpresent, hw, hprog, -⟩
  simp [hpresent, hw, hprog] at h

theorem fetchR_idle {present : Bool}
    (h : present = false ∨ s.rProg = [] ∨ s.rrstN = false ∨ s.pk.active = true) : fetchR present s = .idle := by
  refine (fetchR_cases present s).resolve_right ?_
  rintro ⟨w, rest, hpresent, hready, hprog, -⟩
  obtain ⟨hr, hpk⟩ : s.rrstN = true ∧ s.pk.active = false := by simpa [State.rReady] using hready
  simp [hpresent, hr, hpk, hprog] at h

end Fetching

/-! ### The edges of a block with no reset half asserted -/

section Edges

variable {s : State} (hwhole : s.resetAlone = none)
include hwhole

theorem eventStep_wclk (present : Bool) : eventStep (.wclk present) s = runFetched .wNop s (fetchW present s) :=
  unlessPartial_whole _ _ _ hwhole

theorem eventStep_rclk (present : Bool) : eventStep (.rclk present) s = runFetched .rNop s (fetchR present s) :=
  unlessPartial_whole _ _ _ hwhole

theorem eventStep_wclk_accept {w : Nat} {rest : List Nat} (hw : s.wrstN = true) (hprog : s.wProg = w :: rest) :
    eventStep (.wclk true) s = runFetched .wNop s (accept .producer w s.params { s with wProg := rest }) := by
  rw [eventStep_wclk hwhole, fetchW_ready hw hprog]

theorem eventStep_rclk_accept {w : Nat} {rest : List Nat} (hr : s.rrstN = true) (hpk : s.pk.active = false)
    (hprog : s.rProg = w :: rest) :
    eventStep (.rclk true) s = runFetched .rNop s (accept .consumer w s.params { s with rProg := rest }) := by
  rw [eventStep_rclk hwhole, fetchR_ready hr hpk hprog]

theorem eventStep_wclk_command {w : Nat} {rest : List Nat} {i : Instr} (hw : s.wrstN = true)
    (hprog : s.wProg = w :: rest) (hi : decode s.params .producer w = .ok i) :
    eventStep (.wclk true) s = exec i { s with wProg := rest } := by
  rw [eventStep_wclk_accept hwhole hw hprog, accept_of_ok hi, runFetched]

theorem eventStep_rclk_command {w : Nat} {rest : List Nat} {i : Instr} (hr : s.rrstN = true)
    (hpk : s.pk.active = false) (hprog : s.rProg = w :: rest) (hi : decode s.params .consumer w = .ok i) :
    eventStep (.rclk true) s = exec i { s with rProg := rest } := by
  rw [eventStep_rclk_accept hwhole hr hpk hprog, accept_of_ok hi, runFetched]

end Edges

/-- Settles O7: an edge runs what its port fetches: the decoded command where the port is ready, else the port's NOP. -/
theorem stepRunsTheFetchedCommand : Obligations.StepRunsTheFetchedCommand := by
  intro s w rest i present hwhole
  have hafter : (afterEvent s).resetAlone = none := (afterEvent_resetAlone s).trans hwhole
  refine ⟨fun hev hw hprog hi => ?_, fun hev hr hpk hprog hi => ?_, fun hev hidle => ?_, fun hev hidle => ?_⟩ <;>
    rw [step_eq hev]
  · exact eventStep_wclk_command hafter (by simpa using hw) (by simpa using hprog) (by simpa using hi)
  · exact eventStep_rclk_command hafter (by simpa using hr) (by simpa using hpk) (by simpa using hprog)
      (by simpa using hi)
  · rw [eventStep_wclk hafter, fetchW_idle (by simpa using hidle), runFetched]
  · rw [eventStep_rclk hafter, fetchR_idle (by simpa using hidle), runFetched]

/-- Settles O9: a word that does not decode is fetched as a refusal, and the edge answers it. -/
theorem acceptedReservedWordStops : Obligations.AcceptedReservedWordStops := by
  intro s w rest e hwhole
  have hafter : (afterEvent s).resetAlone = none := (afterEvent_resetAlone s).trans hwhole
  refine ⟨fun hev hw hprog he => ?_, fun hev hr hpk hprog he => ?_⟩ <;> rw [step_eq hev]
  · rw [eventStep_wclk_accept hafter (by simpa using hw) (by simpa using hprog), accept_of_error (by simpa using he),
      runFetched]
  · rw [eventStep_rclk_accept hafter (by simpa using hr) (by simpa using hpk) (by simpa using hprog),
      accept_of_error (by simpa using he), runFetched]

/-! ### A word placed at its port (log 8) -/

theorem decode_of_decodeTableWord {nbits w : Nat} {i : Instr} (h : decodeTableWord nbits w = some i) :
    decode Params.default (tablePort nbits) w = .ok i := by
  unfold decodeTableWord at h
  split at h
  · next hi => rw [hi, Option.some.inj h]
  · cases h

theorem step_placeWord {s : State} {port : Port} {w : Nat} {i : Instr} (hi : decode s.params port w = .ok i) :
    step (placeWord port w s) = exec i (readyPort port s) := by
  cases port with
  | producer => exact eventStep_wclk_command (s := afterEvent (placeWord .producer w s)) rfl rfl rfl hi
  | consumer => exact eventStep_rclk_command (s := afterEvent (placeWord .consumer w s)) rfl rfl rfl rfl hi

/-- Settles O8: the word is placed at the port the table gives it, where the edge that comes next accepts it. -/
theorem placedWordRunsNext : Obligations.PlacedWordRunsNext := by
  intro s nbits w i hp hi
  have hword := decode_of_decodeTableWord hi
  rw [← hp] at hword
  exact step_placeWord hword

end Sys2Proof.Machine

/-! SUPPORT. The pseudo-operations (30_encoding.md R70 to R72): the scan of W.TEXT, a WRITE at level A, and the count
that R.DELETEALL empties. -/

namespace Sys2Proof.Machine

/-! ### W.TEXT (R71, 40_reference_operations.md R83, 43_write_port.md R111) -/

/-- The scan stops at its bound or at the first sentinel. -/
theorem scanText_some {sentinel maxScan l : Nat} {text : List Nat} (h : scanText sentinel maxScan text = some l) :
    l ≤ maxScan ∧ l ≤ text.length ∧ (∀ t ∈ text.take l, t ≠ sentinel) ∧
      (l = maxScan ∨ text[l]? = some sentinel) := by
  induction maxScan generalizing text l with
  | zero =>
    obtain rfl : 0 = l := by simpa [scanText] using h
    simp
  | succ k ih =>
    cases text with
    | nil => simp [scanText] at h
    | cons t rest =>
      rw [scanText] at h
      split at h
      · next ht =>
        obtain rfl : 0 = l := by simpa using h
        simp [ht]
      · next ht =>
        obtain ⟨m, hm, rfl⟩ := Option.map_eq_some_iff.1 h
        obtain ⟨hbound, hlength, hbefore, hstop⟩ := ih hm
        exact ⟨Nat.succ_le_succ hbound, Nat.succ_le_succ hlength, by simpa [ht] using hbefore, by simpa using hstop⟩

/-- The scan fails where the text ends before its bound and before a sentinel. -/
theorem scanText_none {sentinel maxScan : Nat} {text : List Nat} (h : scanText sentinel maxScan text = none) :
    text.length < maxScan ∧ ∀ t ∈ text, t ≠ sentinel := by
  induction maxScan generalizing text with
  | zero => simp [scanText] at h
  | succ k ih =>
    cases text with
    | nil => simp
    | cons t rest =>
      rw [scanText] at h
      split at h
      · cases h
      · next ht =>
        obtain ⟨hlength, hnone⟩ := ih (Option.map_eq_none_iff.1 h)
        exact ⟨Nat.succ_lt_succ hlength, by simpa [ht] using hnone⟩

/-- Settles O28: both sides scan the same text, and the scan's two answers are its two lemmas. -/
theorem textExpandsUpToTheSentinel : Obligations.TextExpandsUpToTheSentinel := by
  intro p text maxScan a ha
  refine ⟨fun hne => ⟨if_neg hne, if_neg (ha ▸ hne)⟩, fun heq => ?_⟩
  have hwidth : a.dataW = 8 := ha.trans heq
  cases hscan : scanText p.textSentinel maxScan text with
  | some l =>
    obtain ⟨hbound, hlength, hbefore, hstop⟩ := scanText_some hscan
    exact .inl ⟨l, hbound, hlength, hbefore, hstop, by simp [expandText, heq, hscan, expandWriteSeq],
      by simp [RefState.writeText, hwidth, hscan]⟩
  | none =>
    obtain ⟨hlength, hnone⟩ := scanText_none hscan
    exact .inr ⟨hlength, hnone, by simp [expandText, heq, hscan], by simp [RefState.writeText, hwidth, hscan]⟩

/-! ### A WRITE at level A (10_state.md R32, 40_reference_operations.md R76) -/

theorem Storage.write_lowBits (dataW : Nat) (m : Storage) (slot v : Nat) :
    m.write dataW slot (lowBits dataW v) = m.write dataW slot v := by simp [Storage.write, lowBits]

/-- Two counts at most `c` apart meet mod `c` only where they are `c` apart. -/
theorem mod_eq_mod_iff_of_window {a b c : Nat} (hlt : b < a) (hle : a ≤ b + c) : a % c = b % c ↔ b + c = a := by
  refine ⟨fun h => ?_, fun h => by rw [← h, Nat.add_mod_right]⟩
  have hdvd : c ∣ a - b := (Nat.modEq_iff_dvd' hlt.le).1 h.symm
  have := Nat.le_of_dvd (Nat.sub_pos_of_lt hlt) hdvd
  omega

/-- Out of reset WRITE is one step of the write domain. -/
theorem exec_write {s : State} (hw : s.wrstN = true) (v : Nat) :
    exec (.write v) s = .next (writeStep (some (elemOperand s.params v)) s) := by
  rw [exec, execWrite, writeEdge, if_pos hw]

section WriteAtLevelA

variable {s : State} (h : MachineInv s)
include h

/-- Level A holds at most `cap - 1` elements. -/
theorem MachineInv.tAbs_window : s.tAbs ≤ s.wAbs ∧ s.wAbs < s.tAbs + s.params.cap := by
  have hcap := s.params.two_le_cap
  have hread : s.rAbs ≤ s.wAbs := h.behindView.trans h.ws.viewAbs_le
  unfold State.tAbs
  omega

/-- A WRITE moves the level-A tail only where the head would meet it. -/
theorem MachineInv.tAbs_writeStep (v : Nat) :
    (writeStep (some v) s).tAbs = if s.tAbs + s.params.cap = s.wAbs + 1 then s.tAbs + 1 else s.tAbs := by
  have hcap := s.params.two_le_cap
  have hread : s.rAbs ≤ s.wAbs := h.behindView.trans h.ws.viewAbs_le
  have hold : s.tAbs = max s.rAbs (s.wAbs - (s.params.cap - 1)) := rfl
  have hnew : (writeStep (some v) s).tAbs = max s.rAbs (s.wAbs + 1 - (s.params.cap - 1)) := rfl
  split <;> omega

/-- The store, the head and the eviction of a WRITE are those of `write1` (R76). -/
theorem MachineInv.levelA_writeStep (v : Nat) :
    (writeStep (some (elemOperand s.params v)) s).levelA = s.levelA.write1 v := by
  obtain ⟨hbehind, hwindow⟩ := h.tAbs_window
  have hslot : pgIdx s.params s.wBin = s.wAbs % s.params.cap := by
    rw [h.wBin, pgIdx, Params.mod_ptrMod_mod_cap]
  have hmeets : (s.wAbs + 1) % s.params.cap = s.tAbs % s.params.cap ↔ s.tAbs + s.params.cap = s.wAbs + 1 :=
    mod_eq_mod_iff_of_window (Nat.lt_succ_of_le hbehind) hwindow
  simp only [State.levelA, RefState.write1, h.tAbs_writeStep, writeStep_params, writeStep_some_storage, writeStep_wAbs,
    Option.isSome_some, if_true, Nat.mod_add_mod, hslot, hmeets, elemOperand, Storage.write_lowBits]
  split <;> rfl

end WriteAtLevelA

/-! ### W.WRITESEQ (R70, R110) -/

theorem runEvents_cons_next {s t : State} {e : Event} (h : eventStep e s = .next t) (rest : List Event) :
    runEvents (e :: rest) s = runEvents rest t := by rw [runEvents, h]

/-- An edge that presents the word of a WRITE takes the word and is `write1` at level A. -/
theorem MachineInv.eventStep_write {s : State} (h : MachineInv s) (hw : s.wrstN = true) {v : Nat} {rest : List Nat}
    (hv : v < 2 ^ s.params.dataW) (hprog : s.wProg = encode s.params (.write v) :: rest) :
    ∃ t, eventStep (.wclk true) s = .next t ∧ MachineInv t ∧ t.wrstN = true ∧ t.params = s.params ∧
      t.wProg = rest ∧ t.levelA = s.levelA.write1 v := by
  have hrest : MachineInv { s with wProg := rest } := h.withDrivers rest s.rProg s.sched s.draws
  obtain ⟨-, hdecode⟩ := decodeOfEncodeIsTheCommand s.params (.write v) (decide_eq_true hv)
  refine ⟨writeStep (some (elemOperand s.params v)) { s with wProg := rest }, ?_, hrest.after_writeStep hw _, hw, rfl,
    rfl, hrest.levelA_writeStep v⟩
  exact (eventStep_wclk_command h.whole hw hprog hdecode).trans (exec_write (s := { s with wProg := rest }) hw v)

theorem MachineInv.runEvents_writeSeq {s : State} {vs : List Nat} (h : MachineInv s) (hw : s.wrstN = true)
    (hfits : ∀ v ∈ vs, v < 2 ^ s.params.dataW) (hprog : s.wProg = (expandWriteSeq vs).map (encode s.params)) :
    ∃ t, runEvents (List.replicate vs.length (.wclk true)) s = .next t ∧ t.wProg = [] ∧
      t.levelA = s.levelA.write vs := by
  induction vs generalizing s with
  | nil => exact ⟨s, rfl, hprog, rfl⟩
  | cons v rest ih =>
    obtain ⟨hv, hrest⟩ := List.forall_mem_cons.1 hfits
    obtain ⟨t, ht, hinv, hwt, hp, hprogt, hlevel⟩ := h.eventStep_write hw hv hprog
    rw [← hp] at hrest hprogt
    obtain ⟨u, hu, hempty, hwrites⟩ := ih hinv hwt hrest hprogt
    exact ⟨u, (runEvents_cons_next ht _).trans hu, hempty, hwrites.trans (congrArg (RefState.write rest) hlevel)⟩

/-- Settles O27: the run of the expansion's words, from the state that has them on its list. -/
theorem writeSequenceIsLevelAWrite : Obligations.WriteSequenceIsLevelAWrite := fun s vs h hw hfits =>
  (h.withDrivers ((expandWriteSeq vs).map (encode s.params)) s.rProg s.sched s.draws).runEvents_writeSeq hw hfits rfl

/-! ### R.DELETEALL (R72) -/

theorem readEdge_ready {s : State} (hr : s.rrstN = true) (hpk : s.pk.active = false) (e : ReadEffect) :
    readEdge e s = readCommit e s := by simp [readEdge, readStep, hr, hpk]

theorem argOperand_of_lt {p : Params} {a : Nat} (h : a < 2 ^ p.argW) : argOperand p a = a := Nat.mod_eq_of_lt h

theorem pgCount_self (p : Params) {a : Nat} (h : a < p.ptrMod) : pgCount p a a = 0 := by
  have := pgCount_mod p (le_refl a)
  simpa [Nat.mod_eq_of_lt h] using this

section DeleteAll

variable {s : State} (h : MachineInv s)
include h

/-- The view is the count ahead of the effective tail. -/
theorem MachineInv.pgAdd_effTail_cnt : pgAdd s.params s.effTail s.cnt = s.wv := by
  rw [h.effTail_eq, pgAdd_mod, Nat.add_assoc, h.skip_add_cnt, State.lag, Nat.add_mod_mod,
    Nat.add_sub_cancel' h.behindView, h.wv_eq]

/-- A delete of at least the count moves the read pointer to the view. -/
theorem MachineInv.deleteEffect_rn {a : Nat} (ha : s.cnt ≤ a) : (deleteEffect a s).rn = s.wv := by
  rw [deleteEffect, Nat.min_eq_right ha, h.pgAdd_effTail_cnt]

theorem MachineInv.cnt_le_largestArg : s.cnt ≤ 2 ^ s.params.argW - 1 :=
  h.cnt_le.trans (Nat.sub_le_sub_right s.params.cap_le_args 1)

theorem MachineInv.wv_lt : s.wv < s.params.ptrMod := h.wv_eq ▸ Nat.mod_lt _ s.params.ptrMod_pos

end DeleteAll

/-- Under the abstract synchronizers no read-domain edge moves the view. -/
theorem MachineInv.wv_readCommit {s : State} {e : ReadEffect} (h : MachineInv s) (ht : MachineInv (readCommit e s))
    (hsync : s.params.sync = .abstract) : (readCommit e s).wv = s.wv := by
  rw [ht.wv_eq, h.wv_eq, State.wvAbs, readCommit_ws, capture_abstract _ hsync, readCommit_params, ← State.wvAbs]

/-- Settles O37: the largest argument is at least the count, so the read pointer goes to the view, where no element is
left. -/
theorem deleteAllEmptiesTheView : Obligations.DeleteAllEmptiesTheView := by
  intro s h hr hpk
  have harg : argOperand s.params (2 ^ s.params.argW - 1) = 2 ^ s.params.argW - 1 :=
    argOperand_of_lt (Nat.sub_lt (Nat.two_pow_pos _) Nat.one_pos)
  have hrn := h.deleteEffect_rn h.cnt_le_largestArg
  have hempty : pgCount s.params s.wv s.wv = 0 := pgCount_self _ h.wv_lt
  have hnext := h.after_readCommit (h.effectInv_delete (2 ^ s.params.argW - 1)) hr
  refine ⟨rfl, readCommit (deleteEffect (2 ^ s.params.argW - 1) s) s, ?_, hrn, hrn.symm ▸ hempty, fun hsync => ?_⟩
  · rw [exec, execDeleteOldest, harg, readEdge_ready hr hpk]
  · have hcount : (readCommit (deleteEffect (2 ^ s.params.argW - 1) s) s).rCount = 0 := by
      simp [State.rCount, State.cnt, hrn, h.wv_readCommit hnext hsync, hempty]
    exact ⟨hcount, by simp [State.rEmpty, hcount]⟩

end Sys2Proof.Machine

/-! SUPPORT. The laws of level A over its contents (40_reference_operations.md R84): the elements from the tail on, what
a write, a delete and the reads make of them, and WRITE at level A with its occupancy. -/

namespace Sys2Proof.Machine

/-- The last `m` elements of a list that goes on with `ys` need only its own last `m`. -/
theorem rtake_rtake_append {α : Type} (m : Nat) (xs ys : List α) :
    (xs.rtake m ++ ys).rtake m = (xs ++ ys).rtake m := by
  simp [List.rtake_eq_reverse_take_reverse, List.take_append, List.take_take]

namespace RefState

/-! ### The elements from the tail on (10_state.md R22) -/

section Window

variable (a : RefState) (n k : Nat)

@[simp] theorem length_oldest : (a.oldest n).length = n := by simp [oldest]

@[simp] theorem getElem_oldest {j : Nat} (hj : j < (a.oldest n).length) :
    (a.oldest n)[j] = a.storage.read a.dataW ((a.tail + j) % a.cap) := by simp [oldest]

theorem take_oldest : (a.oldest n).take k = a.oldest (min n k) := by
  simp [oldest, ← List.map_take, List.take_range, Nat.min_comm]

theorem oldest_succ :
    a.oldest (n + 1) = a.oldest n ++ [a.storage.read a.dataW ((a.tail + n) % a.cap)] := by
  simp [oldest, List.range_succ]

/-- The elements from a tail moved on by `k`, whatever the head. -/
theorem oldest_tail_advanced (head : Nat) :
    { a with tail := (a.tail + k) % a.cap, head := head }.oldest (n - k) = (a.oldest n).drop k :=
  List.ext_getElem (by simp) fun j _ _ => by simp [Nat.add_assoc]

end Window

theorem length_contents (a : RefState) : a.contents.length = a.length := a.length_oldest a.occ

/-! ### The parts of a write (R76) -/

/-- The state with `v` in the slot of the head, before `write1` moves the indices. -/
def storeAtHead (v : Nat) (s : RefState) : RefState := { s with storage := s.storage.write s.dataW s.head v }

/-- How many elements a `write1` evicts: one at capacity, none below it. -/
def evicted (s : RefState) : Nat := s.occ + 1 - (s.cap - 1)

theorem evicted_add_kept (a : RefState) : a.evicted + min (a.occ + 1) (a.cap - 1) = a.occ + 1 := by
  unfold evicted
  omega

section UnderInv

variable {a : RefState} (h : a.Inv)
include h

/-- `occ` is the one count below `cap` that leads from the tail to the head. -/
theorem Inv.occ_eq_iff {n : Nat} (hn : n < a.cap) : a.occ = n ↔ (a.tail + n) % a.cap = a.head := by
  rw [h.occ_eq]
  obtain ⟨-, hhead, htail⟩ := h
  rw [Nat.add_mod_eq_ite, Nat.mod_eq_of_lt htail, Nat.mod_eq_of_lt hn]
  split <;> split <;> omega

theorem Inv.occ_lt : a.occ < a.cap := h.mod_cap_lt _

theorem Inv.tail_add_occ : (a.tail + a.occ) % a.cap = a.head := (h.occ_eq_iff h.occ_lt).1 rfl

/-! ### DELETE_OLDEST (R79, R84 laws 3 and 4) -/

/-- The assignment `head <- tail` of the rule changes nothing (90_conflicts.md C1). -/
theorem Inv.head_deleteOldest (k : Nat) : (a.deleteOldest k).head = a.head := by
  dsimp only [deleteOldest]
  split
  · next hall => rw [hall, h.tail_add_occ]
  · rfl

theorem Inv.occ_deleteOldest (k : Nat) : (a.deleteOldest k).occ = a.occ - k := by
  have hocc := h.occ_lt
  refine ((h.after_deleteOldest k).occ_eq_iff (n := a.occ - k) ((Nat.sub_le _ _).trans_lt hocc)).2 ?_
  rw [h.head_deleteOldest]
  have hsum : min k a.occ + (a.occ - k) = a.occ := by omega
  simp [deleteOldest, Nat.add_assoc, hsum, h.tail_add_occ]

theorem Inv.contents_deleteOldest (k : Nat) : (a.deleteOldest k).contents = a.contents.drop k := by
  have hclamp : a.occ - k = a.occ - min k a.occ := by omega
  calc (a.deleteOldest k).contents
      = (a.deleteOldest k).oldest (a.occ - min k a.occ) := by rw [contents, h.occ_deleteOldest, hclamp]
    _ = a.contents.drop (min k a.occ) := a.oldest_tail_advanced _ _ _
    _ = a.contents.drop k := List.drop_eq_drop_iff.2 (by simp [contents])

/-! ### Writes (R76, R77, R84 laws 1 and 2) -/

/-- A store at the head leaves the elements before it and is read after them. -/
theorem Inv.oldest_storeAtHead (v : Nat) :
    (a.storeAtHead v).oldest (a.occ + 1) = a.contents ++ [v % 2 ^ a.dataW] := by
  have hbefore (j : Nat) (hj : j < a.occ) : (a.tail + j) % a.cap ≠ a.head := fun hmeets =>
    hj.ne' ((h.occ_eq_iff (hj.trans h.occ_lt)).2 hmeets)
  have hafter : (a.storeAtHead v).storage.read a.dataW ((a.tail + a.occ) % a.cap) = v % 2 ^ a.dataW := by
    rw [h.tail_add_occ]
    exact Storage.read_write_same _ _ _ _
  refine (oldest_succ _ _).trans ?_
  refine congrArg₂ (· ++ [·]) (List.map_congr_left fun j hj => ?_) hafter
  exact Storage.read_write_other _ _ _ _ _ (hbefore j (List.mem_range.1 hj))

/-- The head meets the tail only at capacity. -/
theorem Inv.head_meets_tail_iff : (a.head + 1) % a.cap = a.tail ↔ a.occ = a.cap - 1 := by
  rw [h.occ_eq]
  obtain ⟨hcap, hhead, htail⟩ := h
  rw [Nat.add_mod_eq_ite, Nat.mod_eq_of_lt hhead, Nat.mod_eq_of_lt hcap]
  split <;> split <;> omega

theorem Inv.tail_write1 (v : Nat) : (a.write1 v).tail = (a.tail + a.evicted) % a.cap := by
  have hle := h.occ_le
  dsimp only [write1, evicted]
  rw [if_congr h.head_meets_tail_iff rfl rfl]
  split
  · next hfull => rw [hfull, Nat.add_sub_cancel_left]
  · next hroom => rw [Nat.sub_eq_zero_of_le (by omega), Nat.add_zero, Nat.mod_eq_of_lt h.2.2]

/-- `write1` is the store, and the two indices moved on. -/
theorem Inv.write1_eq (v : Nat) :
    a.write1 v =
      { a.storeAtHead v with tail := (a.tail + a.evicted) % a.cap, head := (a.head + 1) % a.cap } := by
  rw [← h.tail_write1 v]
  rfl

theorem Inv.occ_write1 (v : Nat) : (a.write1 v).occ = min (a.occ + 1) (a.cap - 1) := by
  have hlt : min (a.occ + 1) (a.cap - 1) < a.cap :=
    (Nat.min_le_right _ _).trans_lt (Nat.sub_lt (Nat.zero_lt_two.trans_le h.1) Nat.one_pos)
  refine ((h.after_write1 v).occ_eq_iff hlt).2 ?_
  calc ((a.write1 v).tail + min (a.occ + 1) (a.cap - 1)) % a.cap
      = (a.tail + a.occ + 1) % a.cap := by
        rw [h.tail_write1, Nat.mod_add_mod, Nat.add_assoc, a.evicted_add_kept, Nat.add_assoc]
    _ = (a.head + 1) % a.cap := by rw [← Nat.mod_add_mod, h.tail_add_occ]

theorem Inv.contents_write1 (v : Nat) :
    (a.write1 v).contents = (a.contents ++ [v % 2 ^ a.dataW]).rtake (a.cap - 1) := by
  calc (a.write1 v).contents
      = (a.write1 v).oldest (a.occ + 1 - a.evicted) := by
        rw [contents, h.occ_write1, ← Nat.eq_sub_of_add_eq' a.evicted_add_kept]
    _ = ((a.storeAtHead v).oldest (a.occ + 1)).drop a.evicted := by
        rw [h.write1_eq]
        exact oldest_tail_advanced _ _ _ _
    _ = (a.contents ++ [v % 2 ^ a.dataW]).rtake (a.cap - 1) := by
        simp [h.oldest_storeAtHead, List.rtake, contents, evicted]

theorem Inv.contents_write (vs : List Nat) :
    (a.write vs).contents = (a.contents ++ vs.map (fun v => v % 2 ^ a.dataW)).rtake (a.cap - 1) := by
  induction vs generalizing a with
  | nil => simp [write, List.rtake, length_contents, length, Nat.sub_eq_zero_of_le h.occ_le]
  | cons v rest ih =>
    calc ((a.write1 v).write rest).contents
        = ((a.write1 v).contents ++ rest.map (fun v => v % 2 ^ a.dataW)).rtake (a.cap - 1) := ih (h.after_write1 v)
      _ = _ := by rw [h.contents_write1, rtake_rtake_append, List.append_assoc]; rfl

/-! ### Reads (R78, R81, R82, R84 laws 5 and 6) -/

/-- The `i`-th element from the newest, by the one slot the checked form reads (R82). -/
theorem Inv.getElem?_contents_from_newest {i : Nat} (hi : i < a.occ) :
    a.contents[a.occ - 1 - i]? = some (a.storage.read a.dataW ((a.head + a.cap - 1 - i) % a.cap)) := by
  have hocc := h.occ_lt
  have hslot : (a.tail + (a.occ - 1 - i)) % a.cap = (a.head + a.cap - 1 - i) % a.cap := by
    have hback : a.head + a.cap - 1 - i = a.head + (a.cap - 1 - i) := by omega
    have hahead : a.tail + a.occ + (a.cap - 1 - i) = a.tail + (a.occ - 1 - i) + a.cap := by omega
    rw [hback, ← h.tail_add_occ, Nat.mod_add_mod, hahead, Nat.add_mod_right]
  rw [← hslot, contents, List.getElem?_eq_getElem (by simp; omega), getElem_oldest]

/-- In contract the two branches of R81 read the slot of R82. -/
theorem Inv.getNth_of_lt (n : Nat) {i : Nat} (hi : i < a.occ) :
    a.getNth n i = a.storage.read a.dataW ((a.head + a.cap - 1 - i) % a.cap) := by
  have hocc := h.occ_lt
  have hhead := h.2.1
  rw [getNth, if_pos hi]
  split
  · next hbelow =>
    have hwrapped : a.head + a.cap - 1 - i = a.head - i - 1 + a.cap := by omega
    rw [hwrapped, Nat.add_mod_right, Nat.mod_eq_of_lt (by omega)]
  · next habove =>
    have hplain : a.head + a.cap - 1 - i = a.cap - 1 + a.head - i := by omega
    rw [hplain, Nat.mod_eq_of_lt (by omega)]

end UnderInv

theorem peek_eq (a : RefState) (m : Nat) : a.peek m = (a.contents.take m, decide (a.length < m)) := by
  rw [peek, contents, take_oldest, length]

theorem getNth_lt_of_le (a : RefState) (n : Nat) {i : Nat} (hi : a.occ ≤ i) : a.getNth n i < 2 ^ a.dataW := by
  rw [getNth, if_neg hi.not_gt]
  exact Nat.mod_lt _ (Nat.two_pow_pos _)

end RefState

/-- Settles O52: by induction on the elements, each `write1` keeping the last `cap - 1`. -/
theorem writesKeepTheNewestInOrder : Obligations.WritesKeepTheNewestInOrder := by
  intro a vs h all
  have hcontents : (a.write vs).contents = all.rtake (a.cap - 1) := h.contents_write vs
  refine ⟨hcontents, ?_⟩
  rw [← RefState.length_contents, hcontents, List.rtake, List.length_drop]
  omega

/-- Settles O53: the tail moves on by the clamped count, and the head is where it was. -/
theorem deleteDropsTheOldest : Obligations.DeleteDropsTheOldest := fun _ k h =>
  ⟨h.contents_deleteOldest k, h.occ_deleteOldest k, h.head_deleteOldest k, rfl⟩

/-- Settles O54: both forms of getNth read the slot of the `i`-th element from the newest. -/
theorem levelAReadsReturnTheContents : Obligations.LevelAReadsReturnTheContents := by
  intro a m i n h
  refine ⟨a.length_contents, a.peek_eq m, fun hi => ?_, fun hi => ⟨if_neg hi.not_gt, a.getNth_lt_of_le n hi⟩⟩
  rw [h.getNth_of_lt n hi]
  exact ⟨h.getElem?_contents_from_newest hi, if_pos hi⟩

/-! ### WRITE at level A (R76, R104) -/

theorem MachineInv.occA_writeStep {s : State} (h : MachineInv s) (v : Nat) :
    (writeStep (some v) s).occA = min (s.occA + 1) (s.params.cap - 1) := by
  obtain ⟨hbehind, hwindow⟩ := h.tAbs_window
  rw [State.occA, State.occA, h.tAbs_writeStep, writeStep_wAbs]
  simp only [Option.isSome_some, if_true]
  split <;> omega

/-- Settles O26: the producer's edge is `write1` of the level-A image, and its head takes the tail along at capacity. -/
theorem writeIsLevelAWrite : Obligations.WriteIsLevelAWrite := fun _ v h hw =>
  ⟨_, exec_write hw v, h.levelA_writeStep v, h.occA_writeStep _⟩

end Sys2Proof.Machine

/-! SUPPORT. The Gray code is linear over XOR, and `gray` and `ungray` invert each other from both sides
(41_gray_counter.md R85); codes of successive pointers (R89). -/

namespace Sys2Proof.Machine

/-! ### The Gray code and its inverse (R85) -/

theorem gray_xor (x y : Nat) : gray (x ^^^ y) = gray x ^^^ gray y := by
  simp only [gray, Nat.shiftRight_xor_distrib]
  ac_rfl

theorem testBit_gray (x i : Nat) : (gray x).testBit i = (x.testBit i ^^ x.testBit (i + 1)) := by
  rw [gray, Nat.testBit_xor, Nat.testBit_shiftRight, Nat.add_comm 1 i]

theorem ungray_eq_foldl (n g : Nat) : ungray n g = ((List.range n).map fun i => g >>> i).foldl (· ^^^ ·) 0 := by
  induction n with
  | zero => rfl
  | succ n ih => simp [ungray, ih, List.range_succ]

theorem ungray_lt {n g : Nat} (m : Nat) (h : g < 2 ^ n) : ungray m g < 2 ^ n := by
  induction m with
  | zero => exact Nat.two_pow_pos n
  | succ m ih => exact Nat.xor_lt_two_pow ih ((Nat.shiftRight_le g m).trans_lt h)

/-- The inverse law telescopes on the other side too: linearity turns the code of the shifts' XOR into the XOR of their
codes. -/
theorem gray_ungray_eq (n g : Nat) : gray (ungray n g) = g ^^^ (g >>> n) := by
  induction n with
  | zero => simp [ungray, gray]
  | succ n ih =>
    have hshift : gray (g >>> n) = g >>> n ^^^ g >>> (n + 1) := by rw [gray, ← Nat.shiftRight_add]
    rw [ungray, gray_xor, ih, hshift, Nat.xor_assoc, Nat.xor_xor_cancel_left]

theorem gray_ungray {n g : Nat} (h : g < 2 ^ n) : gray (ungray n g) = g := by
  rw [gray_ungray_eq, Nat.shiftRight_eq_zero g n h, Nat.xor_zero]

/-- R85 bit by bit, for every bit: above the top bit `ungray n g` holds zeros. -/
theorem testBit_ungray {n g : Nat} (h : g < 2 ^ n) (i : Nat) :
    (ungray n g).testBit i = ((ungray n g).testBit (i + 1) ^^ g.testBit i) := by
  have hbit : g.testBit i = ((ungray n g).testBit i ^^ (ungray n g).testBit (i + 1)) := by
    rw [← testBit_gray, gray_ungray h]
  rw [hbit, Bool.xor_comm, Bool.xor_assoc, Bool.xor_self, Bool.xor_false]

theorem testBit_ungray_top {n g : Nat} (h : g < 2 ^ (n + 1)) : (ungray (n + 1) g).testBit n = g.testBit n := by
  rw [testBit_ungray h, Nat.testBit_lt_two_pow (ungray_lt (n + 1) h), Bool.false_xor]

/-- Settles O11: linearity of the code gives the bits, and the shifts telescope. -/
theorem ungrayInvertsGray : Obligations.UngrayInvertsGray := fun n _ g =>
  ⟨rfl, ungray_eq_foldl n g, fun h => ⟨testBit_ungray_top h, fun i _ => testBit_ungray h i⟩, ungray_gray⟩

/-! ### The valid codes and the decoder (R86 to R88) -/

section Decoder

variable {p : Params}

theorem code_lt {b : Nat} (hb : b < p.ptrMod) : code p b < 2 ^ ptrWidth p := gray_lt (add_grayOffset_lt hb)

theorem validCode_iff (g : Nat) :
    validCode p g = true ↔
      g < 2 ^ ptrWidth p ∧ grayOffset p ≤ ungray (ptrWidth p) g ∧
        ungray (ptrWidth p) g < grayOffset p + p.ptrMod := by
  simp [validCode, and_assoc]

/-- R88: a valid code lies within the M values from the offset on, so it is the code of the pointer there. -/
theorem validCode_iff_exists_code (g : Nat) : validCode p g = true ↔ ∃ b, b < p.ptrMod ∧ code p b = g := by
  constructor
  · intro hvalid
    obtain ⟨hg, hlow, hhigh⟩ := (validCode_iff g).1 hvalid
    refine ⟨ungray (ptrWidth p) g - grayOffset p, by omega, ?_⟩
    rw [code, Nat.sub_add_cancel hlow, gray_ungray hg]
  · rintro ⟨b, hb, rfl⟩
    exact validCode_code hb

theorem decodeCode_lt (port : Port) (n g : Nat) : decodeCode p port n g < p.ptrMod := by
  unfold decodeCode
  split
  · next hvalid =>
    obtain ⟨-, hlow, hhigh⟩ := (validCode_iff g).1 hvalid
    omega
  · exact Nat.mod_lt _ p.ptrMod_pos

end Decoder

/-- Settles O12: a valid code is a pointer's, and the decoder answers a draw only for the others. -/
theorem pointerCodesDecode : Obligations.PointerCodesDecode := fun _ port n =>
  ⟨validCode_iff_exists_code, fun _ hb => ⟨code_lt hb, decodeCode_code hb port n⟩, decodeCode_lt port n⟩

/-! ### Codes of successive pointers (R89) -/

/-- The code of a run of ones is its top bit. -/
theorem gray_two_pow_sub_one (k : Nat) : gray (2 ^ (k + 1) - 1) = 2 ^ k := by
  refine Nat.eq_of_testBit_eq fun i => ?_
  rw [testBit_gray, Nat.testBit_two_pow_sub_one, Nat.testBit_two_pow_sub_one, Nat.testBit_two_pow, Bool.eq_iff_iff]
  simp only [bne_iff_ne, ne_eq, decide_eq_decide, decide_eq_true_eq]
  omega

/-- An increment flips the trailing ones and the zero above them. -/
theorem xor_succ_eq_two_pow_sub_one (x : Nat) : ∃ k, x ^^^ (x + 1) = 2 ^ (k + 1) - 1 := by
  induction x using Nat.evenOddRec with
  | h0 => exact ⟨0, rfl⟩
  | h_even n _ =>
    refine ⟨0, ?_⟩
    rw [← Nat.xor_one_of_even (even_two_mul n), Nat.xor_xor_cancel_left]
    rfl
  | h_odd n ih =>
    obtain ⟨k, hk⟩ := ih
    have hhalf : ((2 * n + 1) ^^^ (2 * n + 1 + 1)) / 2 = 2 ^ (k + 1) - 1 := by
      rw [Nat.xor_div_two, ← hk]
      congr 1 <;> omega
    have hodd : ((2 * n + 1) ^^^ (2 * n + 1 + 1)) % 2 = 1 := by
      rw [Nat.xor_mod_two_eq]
      omega
    have := Nat.two_pow_pos (k + 1)
    exact ⟨k + 1, by omega⟩

/-- A value and its complement in `n` bits differ in every bit. -/
theorem xor_two_pow_sub_succ {n x : Nat} (h : x < 2 ^ n) : x ^^^ (2 ^ n - (x + 1)) = 2 ^ n - 1 := by
  refine Nat.eq_of_testBit_eq fun i => ?_
  rw [Nat.testBit_xor, Nat.testBit_two_pow_sub_succ h, Nat.testBit_two_pow_sub_one]
  by_cases hi : i < n
  · simp [hi]
  · have hzero : x.testBit i = false :=
      Nat.testBit_lt_two_pow (h.trans_le (Nat.pow_le_pow_right Nat.two_pos (not_lt.1 hi)))
    simp [hi, hzero]

section Successive

variable (p : Params)

theorem ptrWidth_pos : 0 < ptrWidth p := by
  refine Nat.pos_of_ne_zero fun hzero => ?_
  have hle := ptrMod_le_two_pow p
  have := p.two_le_cap
  have := p.two_cap_le_ptrMod
  rw [hzero] at hle
  omega

/-- The offset centres the codes: the last pointer is coded as far from the top value as the first is from zero. -/
theorem last_add_grayOffset : p.ptrMod - 1 + grayOffset p = 2 ^ ptrWidth p - (grayOffset p + 1) := by
  have heven : 2 ^ ptrWidth p = 2 * 2 ^ (ptrWidth p - 1) := (mul_pow_sub_one (ptrWidth_pos p).ne' 2).symm
  have := ptrMod_le_two_pow p
  have := p.ptrMod_even
  have := p.ptrMod_pos
  unfold grayOffset
  omega

/-- R89 at the wrap: the two values are complements, and the code of all ones is the top bit. -/
theorem code_last_xor_code_zero : code p (p.ptrMod - 1) ^^^ code p 0 = 2 ^ (ptrWidth p - 1) := by
  have hoffset : grayOffset p < 2 ^ ptrWidth p := by simpa using add_grayOffset_lt p.ptrMod_pos
  calc code p (p.ptrMod - 1) ^^^ code p 0
      = gray (grayOffset p ^^^ (2 ^ ptrWidth p - (grayOffset p + 1))) := by
        rw [code, code, ← gray_xor, last_add_grayOffset, Nat.zero_add, Nat.xor_comm]
    _ = gray (2 ^ (ptrWidth p - 1 + 1) - 1) := by
        rw [xor_two_pow_sub_succ hoffset, Nat.sub_add_cancel (ptrWidth_pos p)]
    _ = 2 ^ (ptrWidth p - 1) := gray_two_pow_sub_one _

variable {p}

/-- R89 below the wrap: the codes differ in the code of a run of ones. -/
theorem code_xor_code_succ {b : Nat} (hb : b + 1 < p.ptrMod) :
    ∃ k, k < ptrWidth p ∧ code p b ^^^ code p (b + 1) = 2 ^ k := by
  obtain ⟨k, hk⟩ := xor_succ_eq_two_pow_sub_one (b + grayOffset p)
  have hbit : code p b ^^^ code p (b + 1) = 2 ^ k := by
    rw [code, code, ← gray_xor, Nat.add_right_comm, hk, gray_two_pow_sub_one]
  have hlt : 2 ^ k < 2 ^ ptrWidth p := hbit ▸ Nat.xor_lt_two_pow (code_lt (Nat.lt_of_succ_lt hb)) (code_lt hb)
  exact ⟨k, (Nat.pow_lt_pow_iff_right Nat.one_lt_two).1 hlt, hbit⟩

theorem code_xor_code_next {b : Nat} (hb : b < p.ptrMod) :
    ∃ k, k < ptrWidth p ∧ code p b ^^^ code p ((b + 1) % p.ptrMod) = 2 ^ k := by
  obtain hnext | hwrap : b + 1 < p.ptrMod ∨ b + 1 = p.ptrMod := Nat.lt_or_eq_of_le hb
  · rw [Nat.mod_eq_of_lt hnext]
    exact code_xor_code_succ hnext
  · rw [hwrap, Nat.mod_self, Nat.eq_sub_of_add_eq hwrap]
    exact ⟨ptrWidth p - 1, Nat.sub_one_lt (ptrWidth_pos p).ne', code_last_xor_code_zero p⟩

end Successive

/-- Settles O13: one bit below the wrap, the top bit at it, and R90's edge is the step to the next pointer. -/
theorem counterEdgeChangesAtMostOneBit : Obligations.CounterEdgeChangesAtMostOneBit := fun p _ _ hb =>
  ⟨code_xor_code_next hb, code_last_xor_code_zero p, rfl⟩

end Sys2Proof.Machine

/-! SUPPORT. The pointer_generator's hardware forms, its differences as remainders of integers, and the slots they name
(42_pointer_generator.md R93 to R103); the absolute counts that stand for a level-A state (R104). -/

namespace Sys2Proof.Machine

/-! ### Hardware forms (R93, R94, R95) -/

section HardwareForms

variable {p : Params} {a k : Nat}

/-- The wrap: the last pointer is followed by the first. -/
theorem pgInc_last (p : Params) : pgInc p (p.ptrMod - 1) = 0 := by
  rw [pgInc, Nat.sub_add_cancel p.ptrMod_pos, Nat.mod_self]

theorem pgInc_eq_hw (ha : a < p.ptrMod) : pgInc p a = pgIncHw p a := by
  unfold pgIncHw
  split
  · next hlast => rw [hlast, pgInc_last]
  · next hbelow => exact Nat.mod_eq_of_lt (by omega)

theorem pgAdd_zero (ha : a < p.ptrMod) : pgAdd p a 0 = a := Nat.mod_eq_of_lt ha

theorem pgAdd_eq_hw (ha : a < p.ptrMod) (hk : k < p.ptrMod) : pgAdd p a k = pgAddHw p a k := by
  rw [pgAdd, Nat.add_mod_eq_ite, Nat.mod_eq_of_lt ha, Nat.mod_eq_of_lt hk, pgAddHw]

/-- The sum needs one bit more than a pointer. -/
theorem add_lt_two_pow_succ_ptrWidth (ha : a < p.ptrMod) (hk : k < p.ptrMod) : a + k < 2 ^ (ptrWidth p + 1) := by
  have hwidth := ptrMod_le_two_pow p
  rw [Nat.pow_succ]
  omega

theorem pgSub_eq_hw (ha : a < p.ptrMod) (hk : k < p.ptrMod) : pgSub p a k = pgSubHw p a k := by
  rw [pgSub, Nat.mod_eq_of_lt hk, pgSubHw]
  split
  · next hle =>
    have hwrapped : a + (p.ptrMod - k) = a - k + p.ptrMod := by omega
    rw [hwrapped, Nat.add_mod_right, Nat.mod_eq_of_lt (by omega)]
  · next hlt => rw [← Nat.add_sub_assoc hk.le, Nat.mod_eq_of_lt (by omega)]

/-- An amount added to a pointer moves its slot by as much, mod `cap`. -/
theorem pgAdd_mod_cap (p : Params) (a k : Nat) : pgAdd p a k % p.cap = (a % p.cap + k) % p.cap := by
  rw [pgAdd, p.mod_ptrMod_mod_cap, Nat.mod_add_mod]

end HardwareForms

/-! ### Differences as remainders of integers (R95, R96, R101) -/

/-- Adding the complement of `k` is subtracting `k`. -/
theorem natCast_add_complement_mod (a : Nat) {k c : Nat} (hk : k ≤ c) :
    (((a + (c - k)) % c : Nat) : Int) = ((a : Int) - (k : Int)) % (c : Int) := by
  have hsum : ((a + (c - k) : Nat) : Int) = (a : Int) - k + c := by omega
  rw [Int.natCast_mod, hsum, Int.add_emod_right]

section Differences

variable (p : Params) (a k : Nat)

theorem natCast_pgSub : (pgSub p a k : Int) = ((a : Int) - (k : Int)) % (p.ptrMod : Int) := by
  rw [pgSub, natCast_add_complement_mod a (Nat.mod_lt k p.ptrMod_pos).le, Int.natCast_mod, Int.sub_emod_emod]

/-- The slot of a difference, where `cap` divides M. -/
theorem natCast_pgSub_mod_cap : ((pgSub p a k % p.cap : Nat) : Int) = ((a : Int) - (k : Int)) % (p.cap : Int) := by
  rw [Int.natCast_mod, natCast_pgSub, Int.emod_emod_of_dvd _ (Int.natCast_dvd_natCast.2 p.cap_dvd_ptrMod)]

variable (wv i : Nat)

theorem natCast_pgNthIdx : (pgNthIdx p wv i : Int) = ((wv : Int) - 1 - (i : Int)) % (p.cap : Int) := by
  have hi : i % p.cap + 1 ≤ p.cap := Nat.mod_lt i p.cap_pos
  have hback : wv % p.cap + p.cap - 1 - i % p.cap = wv % p.cap + (p.cap - (i % p.cap + 1)) := by omega
  calc (pgNthIdx p wv i : Int)
      = ((wv % p.cap : Nat) - (i % p.cap + 1 : Nat) : Int) % p.cap := by
        rw [pgNthIdx, hback, natCast_add_complement_mod _ hi]
    _ = ((wv : Int) - 1 - (i % p.cap : Nat)) % p.cap := by
        rw [Int.natCast_mod, Int.emod_sub_emod, Int.natCast_succ, Int.add_comm, Int.sub_sub]
    _ = ((wv : Int) - 1 - i) % p.cap := by rw [Int.natCast_mod, Int.sub_emod_emod]

/-- The slot of the pointer GET_NTH reads. -/
theorem pgIdx_pgSub_succ : pgIdx p (pgSub p wv (i + 1)) = pgNthIdx p wv i := by
  refine Int.ofNat_inj.1 ?_
  rw [pgIdx, natCast_pgSub_mod_cap, natCast_pgNthIdx, Int.natCast_succ, Int.sub_sub, Int.add_comm]

variable {p i}

/-- In contract the slot is that of the two branches of `getNth` (40_reference_operations.md R81). -/
theorem pgNthIdx_of_lt (hi : i < p.cap - 1) :
    pgNthIdx p wv i = if i < wv % p.cap then wv % p.cap - i - 1 else p.cap - 1 + wv % p.cap - i := by
  have hhead := Nat.mod_lt wv p.cap_pos
  have hi' : i % p.cap = i := Nat.mod_eq_of_lt (by omega)
  have hback : wv % p.cap + p.cap - 1 - i = wv % p.cap + (p.cap - 1 - i) := by omega
  have hlt : p.cap - 1 - i < p.cap := by omega
  rw [pgNthIdx, hi', hback, Nat.add_mod_eq_ite, Nat.mod_mod, Nat.mod_eq_of_lt hlt]
  split <;> split <;> omega

end Differences

/-- Settles O14: the hardware forms wrap by one comparison, and the slots follow because `cap` divides M. -/
theorem incAddSubHaveTheirHardwareForms : Obligations.IncAddSubHaveTheirHardwareForms := fun p a k ha hk =>
  ⟨⟨rfl, pgInc_eq_hw ha, pgInc_last p, pgAdd_mod_cap p a 1⟩,
    ⟨rfl, pgAdd_eq_hw ha hk, add_lt_two_pow_succ_ptrWidth ha hk, pgAdd_zero ha, pgAdd_mod_cap p a k⟩,
    ⟨natCast_pgSub p a k, pgSub_eq_hw ha hk⟩,
    fun hM => by simp [pgInc, pgAdd, pgSub, hM]⟩

/-! ### The occupancy (R99) -/

section Occupancy

variable {p : Params} {r wv : Nat}

/-- The lag mod M, clamped to `cap - 1`: `wv + M` is a count of the same pointer that is at least `r`. -/
theorem pgCount_eq_min (hr : r < p.ptrMod) (hwv : wv < p.ptrMod) :
    pgCount p r wv = min (pgDist p wv r) (p.cap - 1) := by
  have hle : r ≤ wv + p.ptrMod := hr.le.trans (Nat.le_add_left _ _)
  have hcount := pgCount_mod p hle
  rwa [← pgDist_mod p hle, Nat.add_mod_right, Nat.mod_eq_of_lt hr, Nat.mod_eq_of_lt hwv] at hcount

theorem pgCount_le (hr : r < p.ptrMod) (hwv : wv < p.ptrMod) : pgCount p r wv ≤ p.cap - 1 :=
  pgCount_eq_min hr hwv ▸ Nat.min_le_right _ _

theorem pgCount_lt_two_pow (hr : r < p.ptrMod) (hwv : wv < p.ptrMod) : pgCount p r wv < 2 ^ countWidth p :=
  calc pgCount p r wv
      ≤ p.cap - 1 := pgCount_le hr hwv
    _ < p.cap := Nat.sub_one_lt p.cap_pos.ne'
    _ ≤ 2 ^ countWidth p := le_two_pow_clog2 p.cap

end Occupancy

/-- Settles O15: the distance is the integer remainder, the count its clamp. -/
theorem countIsTheClampedDistance : Obligations.CountIsTheClampedDistance := fun p r wv hr hwv =>
  ⟨rfl, natCast_pgSub p wv r, pgDist_lt p wv r,
    fun _ => (natCast_pgSub_mod_cap p wv r).trans (Int.sub_emod _ _ _),
    rfl, pgCount_eq_min hr hwv, pgCount_le hr hwv, pgCount_lt_two_pow hr hwv,
    fun hM => by simp [pgDist, pgSub, hM],
    fun hM hcap => by simp [pgCount, pgEffTail, pgDist, pgSub, hM, hcap]⟩

/-- Settles O16: every form of the slot is the integer `Wv - 1 - i` mod `cap`. -/
theorem nthSlotIsTheDocumentsFormula : Obligations.NthSlotIsTheDocumentsFormula := fun p wv i _ =>
  ⟨pgNthIdx_lt p wv i, rfl, natCast_pgNthIdx p wv i, fun _ => pgIdx_pgSub_succ p wv i, pgNthIdx_of_lt wv,
    fun hcap => by simp [pgNthIdx, hcap]⟩

/-! ### The published pointer's step (R102) -/

/-- A pointer behind another is one nearer to it after an increment. -/
theorem pgDist_pgInc {p : Params} {rp r : Nat} (hrp : rp < p.ptrMod) (hr : r < p.ptrMod) (hne : rp ≠ r) :
    pgDist p r rp = pgDist p r (pgInc p rp) + 1 := by
  rw [pgDist, pgDist, pgSub_eq_hw hr hrp, pgSub_eq_hw hr (pgInc_lt p rp), pgInc_eq_hw hrp]
  unfold pgSubHw pgIncHw
  obtain hlast | hbelow := eq_or_ne rp (p.ptrMod - 1)
  · rw [if_pos hlast]
    split <;> split <;> omega
  · rw [if_neg hbelow]
    split <;> split <;> omega

/-- Settles O17: off its source the published pointer increments. -/
theorem publishedPointerComesOneStepNearer : Obligations.PublishedPointerComesOneStepNearer := by
  intro p rp r hrp hr
  refine ⟨fun hlevel => if_pos hlevel, fun hne => ?_⟩
  rw [pgStep, if_neg hne]
  exact pgDist_pgInc hrp hr hne

/-! ### Range (R103) -/

/-- Settles O18: below M the lag mod M is the lag, and the clamps of the tail and of the counts are the absolute ones. -/
theorem arithmeticInRangeStandsForAbsoluteCounts : Obligations.ArithmeticInRangeStandsForAbsoluteCounts := by
  intro p r wv hle hrange
  have hlag : (wv - r) % p.ptrMod = wv - r := Nat.mod_eq_of_lt hrange
  have hskip : r + (wv - r - (p.cap - 1)) = max r (wv - (p.cap - 1)) := by omega
  have hdist : pgDist p (wv % p.ptrMod) (r % p.ptrMod) = wv - r := (pgDist_mod p hle).trans hlag
  have hestimate : pgWcount p (wv % p.ptrMod) (r % p.ptrMod) = min (wv - r) (p.cap - 1) := by rw [pgWcount, hdist]
  refine ⟨hdist, ?_, ?_, hestimate, fun rTrue hbefore _ => ?_⟩
  · rw [pgEffTail_mod p hle, hlag, hskip]
  · rw [pgCount_mod p hle, hlag]
    omega
  · rw [hestimate]
    omega

/-! ### Implicit eviction (R104) -/

/-- The absolute counts stand for a level-A state: the claim of R104, with the indices the counts mod `cap`. -/
structure CountsMatch (c : Counts) (a : RefState) : Prop where
  tail_eq : c.tail = max c.afterDelete (c.written - (a.cap - 1))
  tail_le : c.tail ≤ c.written
  headIdx : a.head = c.written % a.cap
  tailIdx : a.tail = c.tail % a.cap

namespace CountsMatch

theorem init (cap dataW : Nat) (storage : Storage) : CountsMatch ⟨0, 0, 0⟩ ⟨cap, dataW, storage, 0, 0⟩ where
  tail_eq := by simp
  tail_le := le_rfl
  headIdx := (Nat.zero_mod cap).symm
  tailIdx := (Nat.zero_mod cap).symm

variable {c : Counts} {a : RefState} (h : CountsMatch c a) (ha : a.Inv)
include h ha

/-- At most `cap - 1` elements are stored, so the indices determine their number. -/
theorem occ_eq : a.occ = c.written - c.tail := by
  have hcap := ha.1
  have htail := h.tail_eq
  have hlt : c.written - c.tail < a.cap := by omega
  refine (ha.occ_eq_iff hlt).2 ?_
  rw [h.tailIdx, h.headIdx, Nat.mod_add_mod, Nat.add_sub_cancel' h.tail_le]

/-- The eviction rule of R104 moves the tail by what `write1` evicts. -/
theorem evicting_tail_eq :
    (if c.written + 1 - c.tail = a.cap then c.tail + 1 else c.tail) = c.tail + a.evicted := by
  have hle := ha.occ_le
  have hcap := ha.1
  have hbehind := h.tail_le
  rw [RefState.evicted]
  rw [h.occ_eq ha] at hle ⊢
  split <;> omega

theorem after_write (v : Nat) : CountsMatch (Counts.run a.cap [.write v] c) (a.write1 v) := by
  have hcap := ha.1
  have htail := h.tail_eq
  have hbehind := h.tail_le
  have hevicted : a.evicted = c.written - c.tail + 1 - (a.cap - 1) := by rw [RefState.evicted, h.occ_eq ha]
  simp only [Counts.run, h.evicting_tail_eq ha]
  exact {
    tail_eq := show c.tail + a.evicted = max c.afterDelete (c.written + 1 - (a.cap - 1)) by omega
    tail_le := show c.tail + a.evicted ≤ c.written + 1 by omega
    headIdx := show (a.head + 1) % a.cap = (c.written + 1) % a.cap by rw [h.headIdx, Nat.mod_add_mod]
    tailIdx := (ha.tail_write1 v).trans (by rw [h.tailIdx, Nat.mod_add_mod]; rfl) }

theorem after_deleteOldest (k : Nat) : CountsMatch (Counts.run a.cap [.deleteOldest k] c) (a.deleteOldest k) := by
  have htail := h.tail_eq
  have hbehind := h.tail_le
  exact {
    tail_eq := (max_eq_left (by dsimp only [Counts.run, RefState.deleteOldest]; omega)).symm
    tail_le := by dsimp only [Counts.run]; omega
    headIdx := (ha.head_deleteOldest k).trans h.headIdx
    tailIdx := show (a.tail + min k a.occ) % a.cap = _ by rw [h.occ_eq ha, h.tailIdx, Nat.mod_add_mod]; rfl }

theorem after_run (ops : List RefOp) :
    CountsMatch (Counts.run a.cap ops c) (RefOp.run ops a) ∧ (RefOp.run ops a).Inv ∧ (RefOp.run ops a).cap = a.cap := by
  induction ops generalizing c a with
  | nil => exact ⟨h, ha, rfl⟩
  | cons op rest ih =>
    cases op with
    | write v => exact ih (h.after_write ha v) (ha.after_write1 v)
    | deleteOldest k => exact ih (h.after_deleteOldest ha k) (ha.after_deleteOldest k)

end CountsMatch

/-- Settles O19: the claim of R104 holds of the empty buffer, and every write and delete keeps it. -/
theorem implicitEvictionGivesTheLevelATail : Obligations.ImplicitEvictionGivesTheLevelATail := by
  intro cap dataW storage ops hcap
  have hpos : 0 < cap := Nat.zero_lt_two.trans_le hcap
  have hempty : RefState.Inv ⟨cap, dataW, storage, 0, 0⟩ := ⟨hcap, hpos, hpos⟩
  obtain ⟨hmatch, hinv, hsize⟩ := (CountsMatch.init cap dataW storage).after_run hempty ops
  have hocc := hmatch.occ_eq hinv
  obtain ⟨htail, hbehind, hheadIdx, htailIdx⟩ := hmatch
  rw [hsize] at htail hheadIdx htailIdx
  exact ⟨htail, hbehind, hheadIdx, htailIdx, hocc⟩

end Sys2Proof.Machine

/-! SUPPORT. The producer port (43_write_port.md): what W_NOP and WRITE do, and the write-side status outputs in absolute
counts (R109). -/

namespace Sys2Proof.Machine

/-! ### The commands (R106, R107) -/

/-- Out of reset W_NOP is one step of the write domain with nothing to write. -/
theorem exec_wNop {s : State} (hw : s.wrstN = true) : exec .wNop s = .next (writeStep none s) := by
  rw [exec, execWNop, writeEdge, if_pos hw]

/-- Settles O24: without an element the edge is its frame, and the counter's enable is off. -/
theorem wNopOnlyShiftsTheChain : Obligations.WNopOnlyShiftsTheChain := fun s hw =>
  ⟨writeStep none s, exec_wNop hw, writeStep_frame none s, writeStep_none_storage s, rfl, rfl, rfl, rfl⟩

/-- Settles O25: the edge stores the operand's DATA_W bits, which is all that `MemWrite` keeps of it, and the counter's
enable is on. -/
theorem writeStoresAtTheHeadAndAdvances : Obligations.WriteStoresAtTheHeadAndAdvances := by
  intro s v hw
  have hstorage : (writeStep (some (elemOperand s.params v)) s).storage =
      s.storage.write s.params.dataW (pgIdx s.params s.wBin) v := by
    rw [writeStep_some_storage, elemOperand, Storage.write_lowBits]
  refine ⟨_, exec_write hw v, writeStep_frame _ s, ?_, fun slot hslot => ?_, rfl, rfl, rfl⟩
  · rw [hstorage, Storage.read_write_same, lowBits]
  · rw [hstorage, Storage.read_write_other _ _ _ _ _ hslot]

/-! ### The status outputs (R109) -/

section StatusOutputs

variable {s : State} (h : MachineInv s)
include h

theorem MachineInv.rpv_eq : s.rpv = s.rpvAbs % s.params.ptrMod := h.rs.view_eq _ _

/-- The read pointer the write domain sees is behind the true one (R48, R100). -/
theorem MachineInv.rpvAbs_le_rAbs : s.rpvAbs ≤ s.rAbs := h.rs.viewAbs_le.trans h.published

/-- Nothing is read that is not written. -/
theorem MachineInv.rAbs_le_wAbs : s.rAbs ≤ s.wAbs := h.behindView.trans h.ws.viewAbs_le

theorem MachineInv.wCount_eq (hw : s.wrstN = true) :
    s.wCount = pgWcount s.params (s.wAbs % s.params.ptrMod) (s.rpvAbs % s.params.ptrMod) := by
  rw [State.wCount, if_pos hw, h.wBin, h.rpv_eq]

end StatusOutputs

theorem wAtCapacity_iff {s : State} (hw : s.wrstN = true) : s.wAtCapacity = true ↔ s.wCount = s.params.cap - 1 := by
  rw [State.wAtCapacity, hw, Bool.true_and, decide_eq_true_iff]

/-- Settles O29: the view, the true read pointer and the write pointer are in the order that R103's conservative bound
asks for. -/
theorem writeCountIsConservative : Obligations.WriteCountIsConservative := by
  intro s h hw hrange
  have hview : s.rpvAbs ≤ s.rAbs := h.rpvAbs_le_rAbs
  have hread : s.rAbs ≤ s.wAbs := h.rAbs_le_wAbs
  have hbehind : s.rpvAbs ≤ s.wAbs := hview.trans hread
  have hlag : s.wAbs - s.rpvAbs < s.params.ptrMod := Nat.sub_lt_left_of_lt_add hbehind hrange
  obtain ⟨-, -, -, hestimate, hconservative⟩ := arithmeticInRangeStandsForAbsoluteCounts s.params _ _ hbehind hlag
  have hcount := h.wCount_eq hw
  exact ⟨hcount.trans hestimate, hcount ▸ hconservative s.rAbs hview hread, wAtCapacity_iff hw⟩

end Sys2Proof.Machine

/-! SUPPORT. The consumer port (44_read_port.md): what each command and each PEEK beat does at its edge, the read-side
status outputs in absolute counts (R116), and a PEEK's whole response while no write comes between (R118, R119). -/

namespace Sys2Proof.Machine

/-! ### An edge of the consumer port (R112 to R115) -/

section Edge

variable {s : State}

/-- An accepted consumer command is one step of the read domain with its own effect. -/
theorem exec_consumer_ready {i : Instr} (hi : i.port = .consumer) (hr : s.rrstN = true) (hpk : s.pk.active = false) :
    exec i s = .next (readCommit (commandEffect s i) s) := by rw [exec_eq, hi, ← readEdge_ready hr hpk]

/-- While a PEEK streams, every consumer command is its beat. -/
theorem exec_consumer_streaming {i : Instr} (hi : i.port = .consumer) (hr : s.rrstN = true)
    (hpk : s.pk.active = true) : exec i s = .next (readCommit (beatEffect s) s) := by
  simp [exec_eq, hi, readEdge, readStep, hr, hpk]

/-- An effect that puts the read pointer at the effective tail does no more to it than normalise it. -/
theorem readCommit_readsOnly {e : ReadEffect} (hrn : e.rn = s.effTail) : ReadsOnly s (readCommit e s) where
  toReadEdgeFrame := readCommit_frame e s
  rBin := hrn
  rAbs := by rw [readCommit_rAbs, hrn, State.effTail]

theorem overrunSeen_readCommit {e : ReadEffect} (h : e.overrun = false) :
    (readCommit e s).overrunSeen = s.overrunSeen := by simp [h]

variable {a : Nat}

theorem readElem_of_ne (h : pgIdx s.params a ≠ pgIdx s.params s.wBin) :
    readElem s a = s.storage.read s.params.dataW (pgIdx s.params a) := if_neg h

theorem readElem_lt_of_eq (h : pgIdx s.params a = pgIdx s.params s.wBin) : readElem s a < 2 ^ s.params.dataW := by
  rw [readElem, if_pos h]
  exact Nat.mod_lt _ (Nat.two_pow_pos _)

theorem wv_lt (s : State) : s.wv < s.params.ptrMod := decodeCode_lt _ _ _

/-- A pointer advanced by its distance to another is the other. -/
theorem pgAdd_pgDist {p : Params} {b : Nat} (hb : b < p.ptrMod) (a : Nat) : pgAdd p a (pgDist p b a) = b := by
  have ha : a % p.ptrMod < p.ptrMod := Nat.mod_lt a p.ptrMod_pos
  have hsum : a % p.ptrMod + (b + (p.ptrMod - a % p.ptrMod)) = b + p.ptrMod := by omega
  rw [pgAdd, pgDist, pgSub, Nat.add_mod_mod, ← Nat.mod_add_mod, hsum, Nat.add_mod_right, Nat.mod_eq_of_lt hb]

/-- The view is the count ahead of the effective tail, on every state. -/
theorem pgAdd_effTail_cnt (s : State) : pgAdd s.params s.effTail s.cnt = s.wv := pgAdd_pgDist (wv_lt s) s.effTail

end Edge

/-! ### The effects, case by case (R118, R122, R123) -/

section Effects

variable {s : State} {a i : Nat}

theorem peekEffect_of_zero (hn : min s.cnt a = 0) :
    peekEffect a s = { idleEffect s with rsp := ⟨true, false, 0, 0, truncated s.cnt a, true⟩ } := if_pos hn

theorem peekEffect_of_ne_zero (hn : min s.cnt a ≠ 0) :
    peekEffect a s = { idleEffect s with
      rsp := ⟨true, true, readElem s s.effTail, min s.cnt a, truncated s.cnt a, decide (min s.cnt a = 1)⟩
      pk := if 2 ≤ min s.cnt a then ⟨true, s.effTail, min s.cnt a, 1, truncated s.cnt a⟩ else s.pk
      pkBaseAbs := if 2 ≤ min s.cnt a then s.effTailAbs else s.pkBaseAbs
      overrun := overrunAt s s.effTailAbs } := if_neg hn

theorem peekEffect_rn (a : Nat) (s : State) : (peekEffect a s).rn = s.effTail := by
  obtain hn | hn := eq_or_ne (min s.cnt a) 0
  · rw [peekEffect_of_zero hn, idleEffect]
  · rw [peekEffect_of_ne_zero hn, idleEffect]

theorem getNthEffect_of_lt (hi : i < s.cnt) :
    getNthEffect i s = { idleEffect s with
      rsp := ⟨true, true, readElem s (pgSub s.params s.wv (i + 1)), 0, false, true⟩
      overrun := overrunNth s i } := if_pos hi

theorem getNthEffect_of_le (hi : s.cnt ≤ i) :
    getNthEffect i s = { idleEffect s with rsp := ⟨true, true, outOfContract s, 0, false, true⟩ } :=
  if_neg hi.not_gt

/-- In range GET_NTH_CHECKED is GET_NTH. -/
theorem getNthCheckedEffect_of_lt (hi : i < s.cnt) : getNthCheckedEffect i s = getNthEffect i s := by
  have hflag : outOfRange s.cnt i = false := decide_eq_false hi.not_ge
  rw [getNthEffect_of_lt hi, getNthCheckedEffect, hflag, if_neg Bool.false_ne_true]

theorem getNthCheckedEffect_of_le (hi : s.cnt ≤ i) :
    getNthCheckedEffect i s = { idleEffect s with rsp := ⟨true, false, 0, 0, true, true⟩ } :=
  if_pos (decide_eq_true hi)

end Effects

/-! ### The commands (R117 to R123) -/

/-- Settles O30: the default effect moves nothing but what every edge does. -/
theorem rNopOnlyNormalises : Obligations.RNopOnlyNormalises := fun _ hr hpk =>
  ⟨_, exec_consumer_ready rfl hr hpk, readCommit_readsOnly rfl, rfl, rfl, rfl, overrunSeen_readCommit rfl⟩

/-- Settles O34: the count is all that LENGTH adds to the default effect. -/
theorem lengthReportsTheCount : Obligations.LengthReportsTheCount := fun _ hr hpk =>
  ⟨_, exec_consumer_ready rfl hr hpk, readCommit_readsOnly rfl, rfl, rfl, rfl, overrunSeen_readCommit rfl⟩

/-- Settles O31: with no element to show, with one, and with more that stream. -/
theorem peekAnswersItsFirstBeat : Obligations.PeekAnswersItsFirstBeat := by
  intro s a hr hpk ha
  have hexec : exec (.peek a) s = .next (readCommit (peekEffect a s) s) := by
    rw [exec_consumer_ready rfl hr hpk, commandEffect, argOperand_of_lt ha]
  refine ⟨_, hexec, readCommit_readsOnly (peekEffect_rn a s), fun hn => ?_, fun hn => ?_⟩
  · rw [peekEffect_of_zero hn]
    exact ⟨rfl, rfl, rfl, overrunSeen_readCommit rfl⟩
  · rw [peekEffect_of_ne_zero hn]
    refine ⟨⟨_, rfl, readElem_of_ne, readElem_lt_of_eq⟩, rfl, fun hone => ?_, fun hmore => ?_⟩
    · exact ⟨if_neg (by omega), if_neg (by omega)⟩
    · exact ⟨if_pos hmore, if_pos hmore⟩

/-- Settles O32: a streaming PEEK's beat is the edge of every consumer command. -/
theorem streamingPeekTakesTheEdge : Obligations.StreamingPeekTakesTheEdge := fun s _ hi hr hpk =>
  ⟨readCommit (beatEffect s) s, exec_consumer_streaming hi hr hpk, readCommit_readsOnly rfl,
    by simp [State.rReady, hpk], rfl, ⟨_, rfl, readElem_of_ne, readElem_lt_of_eq⟩, rfl,
    fun hlast => if_pos (decide_eq_true hlast), fun hlast => if_neg (by simpa using hlast)⟩

/-- Settles O33: a delete clamped to the count puts the read pointer at the view, the count ahead of the tail. -/
theorem deleteMovesTheReadPointerClamped : Obligations.DeleteMovesTheReadPointerClamped := by
  intro s a hr hpk ha
  have hexec : exec (.deleteOldest a) s = .next (readCommit (deleteEffect a s) s) := by
    rw [exec_consumer_ready rfl hr hpk, commandEffect, argOperand_of_lt ha]
  refine ⟨_, hexec, readCommit_frame _ s, rfl, fun hall => ?_, rfl, rfl, rfl, rfl, overrunSeen_readCommit rfl⟩
  rw [readCommit_rBin, deleteEffect, Nat.min_eq_right hall, pgAdd_effTail_cnt]

/-- Settles O35: in contract the element, out of it a draw. -/
theorem getNthReadsTheNthNewest : Obligations.GetNthReadsTheNthNewest := by
  intro s i hr hpk hi
  have hexec : exec (.getNth i) s = .next (readCommit (getNthEffect i s) s) := by
    rw [exec_consumer_ready rfl hr hpk, commandEffect, argOperand_of_lt hi]
  refine ⟨_, hexec, ?_⟩
  obtain hlt | hle := Nat.lt_or_ge i s.cnt
  · rw [getNthEffect_of_lt hlt]
    exact ⟨readCommit_readsOnly rfl, rfl, rfl,
      ⟨_, rfl, fun _ => readElem_of_ne, fun _ => readElem_lt_of_eq, fun hle => absurd hlt hle.not_gt⟩,
      fun _ => rfl, fun hle => absurd hlt hle.not_gt⟩
  · rw [getNthEffect_of_le hle]
    exact ⟨readCommit_readsOnly rfl, rfl, rfl,
      ⟨_, rfl, fun hlt => absurd hlt hle.not_gt, fun hlt => absurd hlt hle.not_gt,
        fun _ => Nat.mod_lt _ (Nat.two_pow_pos _)⟩,
      fun hlt => absurd hlt hle.not_gt, fun _ => overrunSeen_readCommit rfl⟩

/-- Settles O36: in range GET_NTH's element, out of range the flag and no data. -/
theorem getNthCheckedFlagsOutOfRange : Obligations.GetNthCheckedFlagsOutOfRange := by
  intro s i hr hpk hi
  have hexec : exec (.getNthChecked i) s = .next (readCommit (getNthCheckedEffect i s) s) := by
    rw [exec_consumer_ready rfl hr hpk, commandEffect, argOperand_of_lt hi]
  refine ⟨_, hexec, ?_⟩
  obtain hlt | hle := Nat.lt_or_ge i s.cnt
  · rw [getNthCheckedEffect_of_lt hlt, getNthEffect_of_lt hlt]
    exact ⟨readCommit_readsOnly rfl, rfl, rfl, fun _ => ⟨rfl, _, rfl, readElem_of_ne, readElem_lt_of_eq⟩,
      fun hle => absurd hlt hle.not_gt⟩
  · rw [getNthCheckedEffect_of_le hle]
    exact ⟨readCommit_readsOnly rfl, rfl, rfl, fun hlt => absurd hlt hle.not_gt,
      fun _ => ⟨rfl, overrunSeen_readCommit rfl⟩⟩

/-! ### The status outputs (R116) -/

/-- Settles O38: the view is not ahead of the writes, and both the count and the occupancy are clamped to `cap - 1`. -/
theorem readCountIsAtMostTheOccupancy : Obligations.ReadCountIsAtMostTheOccupancy := by
  intro s h hr hrange
  have hlag : s.wvAbs - s.rAbs < s.params.ptrMod := Nat.sub_lt_left_of_lt_add h.behindView hrange
  obtain ⟨-, -, hcnt, -⟩ := arithmeticInRangeStandsForAbsoluteCounts s.params _ _ h.behindView hlag
  have hcount : s.rCount = s.wvAbs - s.effTailAbs := by
    rw [State.rCount, if_pos hr, State.cnt, h.wv_eq, h.rBin, hcnt, State.effTailAbs]
  have hview : s.wvAbs ≤ s.wAbs := h.ws.viewAbs_le
  refine ⟨hcount, ?_, fun hcaught => ?_, decide_eq_true_iff⟩
  · rw [hcount, State.occA, State.tAbs, State.effTailAbs]
    omega
  · rw [hcount, State.effTailAbs, hcaught, State.occA, State.tAbs]

/-! ### The element at an absolute position (R114, R162) -/

section Positions

variable {s : State} (h : MachineInv s) {pos : Nat}
include h

/-- The slot of a written position at most `cap` back is the next store's exactly where the position is `cap` back. -/
theorem MachineInv.pgIdx_eq_pgIdx_wBin_iff (hpos : pos < s.wAbs) (hback : s.wAbs ≤ pos + s.params.cap) :
    pgIdx s.params (pos % s.params.ptrMod) = pgIdx s.params s.wBin ↔ pos + s.params.cap = s.wAbs := by
  rw [h.wBin, pgIdx, pgIdx, Params.mod_ptrMod_mod_cap, Params.mod_ptrMod_mod_cap, eq_comm,
    mod_eq_mod_iff_of_window hpos hback]

theorem MachineInv.pgIdx_ne_pgIdx_wBin (hpos : pos < s.wAbs) (hreach : s.wAbs < pos + s.params.cap) :
    pgIdx s.params (pos % s.params.ptrMod) ≠ pgIdx s.params s.wBin :=
  fun hrace => hreach.ne' ((h.pgIdx_eq_pgIdx_wBin_iff hpos hreach.le).1 hrace)

/-- In range the effective tail is the pointer of its absolute position. -/
theorem MachineInv.effTail_eq_mod (hrange : s.inRange) : s.effTail = s.effTailAbs % s.params.ptrMod :=
  effTailAbs_eq hrange ▸ h.effTail_eq

end Positions

/-- Settles O40: the write pointer's slot is a written position's only where the position is `cap` back. -/
theorem unreachedElementsAreReadExactly : Obligations.UnreachedElementsAreReadExactly := by
  intro s pos h hpos
  refine ⟨fun hreach => ⟨?_, decide_eq_false hreach.not_ge⟩, fun hrace => ?_⟩
  · rw [readElem_of_ne (h.pgIdx_ne_pgIdx_wBin hpos hreach), pgIdx, Params.mod_ptrMod_mod_cap]
  · exact ⟨(h.pgIdx_eq_pgIdx_wBin_iff hpos hrace.le).2 hrace.symm, decide_eq_true hrace.ge⟩

/-! ### A PEEK with no write between (R118, R119) -/

/-- `t` is right after beat `k` of the response to the PEEK of `a` elements accepted at `s`, no write between. -/
structure AfterBeat (s : State) (a k : Nat) (t : State) : Prop where
  machine : MachineInv t
  rrstN : t.rrstN = true
  params : t.params = s.params
  storage : t.storage = s.storage
  wAbs : t.wAbs = s.wAbs
  overrunSeen : t.overrunSeen = s.overrunSeen
  rsp : t.rsp = ⟨true, true, s.storage.read s.params.dataW ((s.effTailAbs + k) % s.params.cap), min s.cnt a,
    decide (s.cnt < a), decide (k + 1 = min s.cnt a)⟩
  more : k + 1 < min s.cnt a →
    t.pk = ⟨true, s.effTail, min s.cnt a, k + 1, decide (s.cnt < a)⟩ ∧ t.pkBaseAbs = s.effTailAbs
  done : k + 1 = min s.cnt a → t.pk.active = false

section Streaming

variable {s t : State} (h : MachineInv s) (hrange : s.inRange) (hreach : s.wAbs < s.effTailAbs + s.params.cap)
  {a k : Nat}

/-- The word at the head of the consumer's list is the command the next presenting edge runs. -/
theorem eventStep_rclk_loaded (hwhole : s.resetAlone = none) (hr : s.rrstN = true) (hpk : s.pk.active = false)
    {i : Instr} (hi : i.port = .consumer) (hfits : i.wellFormed s.params = true) (rest : List Nat) :
    eventStep (.rclk true) { s with rProg := encode s.params i :: rest } = exec i { s with rProg := rest } := by
  obtain ⟨-, hdecode⟩ := decodeOfEncodeIsTheCommand s.params i hfits
  exact eventStep_rclk_command (s := { s with rProg := encode s.params i :: rest }) hwhole hr hpk rfl (hi ▸ hdecode)

/-- An edge with no command presented is that of R_NOP. -/
theorem eventStep_rclk_not_presented (hwhole : s.resetAlone = none) : eventStep (.rclk false) s = exec .rNop s := by
  rw [eventStep_rclk hwhole, fetchR_idle (.inl rfl), runFetched]

include h in
theorem MachineInv.beat_written (hk : k < min s.cnt a) : s.effTailAbs + k < s.wAbs := by
  have hcnt := h.effTailAbs_add_cnt_le
  have hview : s.wvAbs ≤ s.wAbs := h.ws.viewAbs_le
  omega

include h hrange hreach

theorem MachineInv.exec_peek_afterBeat (hr : s.rrstN = true) (hpk : s.pk.active = false) (ha : a < 2 ^ s.params.argW)
    (hn : 0 < min s.cnt a) : ∃ t, exec (.peek a) s = .next t ∧ AfterBeat s a 0 t := by
  obtain ⟨t, ht, hreads, -, hbeat⟩ := peekAnswersItsFirstBeat s a hr hpk ha
  obtain ⟨⟨d, hrsp, hdata, -⟩, hover, hone, hmore⟩ := hbeat hn.ne'
  rw [h.effTail_eq_mod hrange] at hdata
  refine ⟨t, ht, {
    machine := h.after_exec _ ht
    rrstN := hreads.rrstN.trans hr
    params := hreads.params
    storage := hreads.storage
    wAbs := hreads.wAbs
    overrunSeen := by rw [hover, decide_eq_false hreach.not_ge, Bool.or_false]
    rsp := ?_
    more := hmore
    done := fun hlast => (hone hlast.symm).1 ▸ hpk }⟩
  rw [hrsp, hdata (h.pgIdx_ne_pgIdx_wBin (h.beat_written hn) hreach), pgIdx, Params.mod_ptrMod_mod_cap, Nat.add_zero]
  simp only [Nat.zero_add, eq_comm (a := 1)]

theorem AfterBeat.next (ht : AfterBeat s a k t) (hk : k + 1 < min s.cnt a) :
    ∃ u, eventStep (.rclk false) t = .next u ∧ AfterBeat s a (k + 1) u := by
  obtain ⟨hpk, hbase⟩ := ht.more hk
  have hactive : t.pk.active = true := congrArg PeekRegs.active hpk
  obtain ⟨u, hu, hreads, -, hbaseAbs, ⟨d, hrsp, hdata, -⟩, hover, hlast, hmore⟩ :=
    streamingPeekTakesTheEdge t .rNop rfl ht.rrstN hactive
  have hwritten : s.effTailAbs + (k + 1) < t.wAbs := ht.wAbs ▸ h.beat_written hk
  have hunreached : t.wAbs < s.effTailAbs + (k + 1) + t.params.cap := by
    rw [ht.wAbs, ht.params]
    omega
  have hptr : pgAdd t.params t.pk.base t.pk.j = (s.effTailAbs + (k + 1)) % t.params.ptrMod := by
    rw [hpk, h.effTail_eq_mod hrange, ht.params, pgAdd_mod]
  rw [hptr] at hdata
  refine ⟨u, (eventStep_rclk_not_presented ht.machine.whole).trans hu, {
    machine := ht.machine.after_exec _ hu
    rrstN := hreads.rrstN.trans ht.rrstN
    params := hreads.params.trans ht.params
    storage := hreads.storage.trans ht.storage
    wAbs := hreads.wAbs.trans ht.wAbs
    overrunSeen := ?_
    rsp := ?_
    more := fun hmoreBeats => ?_
    done := fun hend => ?_ }⟩
  · rw [hover, hbase, hpk, decide_eq_false hunreached.not_ge, Bool.or_false, ht.overrunSeen]
  · rw [hrsp, hdata (ht.machine.pgIdx_ne_pgIdx_wBin hwritten hunreached), pgIdx, Params.mod_ptrMod_mod_cap, hpk,
      ht.storage, ht.params]
  · rw [hmore (by simp only [hpk]; omega), hbaseAbs, hpk]
    exact ⟨rfl, hbase⟩
  · rw [hlast (by simpa only [hpk] using hend)]

theorem AfterBeat.after_edges (m : Nat) (ht : AfterBeat s a k t) (hk : k + m < min s.cnt a) :
    ∃ u, runEvents (List.replicate m (.rclk false)) t = .next u ∧ AfterBeat s a (k + m) u := by
  induction m generalizing k t with
  | zero => exact ⟨t, rfl, ht⟩
  | succ m ih =>
    obtain ⟨u, hu, hbeat⟩ := ht.next h hrange hreach (by omega)
    obtain ⟨v, hv, hend⟩ := ih hbeat (by omega)
    exact ⟨v, (runEvents_cons_next hu _).trans hv, by rwa [Nat.add_right_comm, Nat.add_assoc] at hend⟩

end Streaming

/-- Settles O39: the accepting edge shows beat 0, each further edge the next one, and the last beat ends the stream. -/
theorem peekStreamsTheOldestElements : Obligations.PeekStreamsTheOldestElements := by
  intro s a k h hr hpk hrange hreach ha hk
  have hloaded : MachineInv { s with rProg := [] } := h.withDrivers s.wProg [] s.sched s.draws
  obtain ⟨t, ht, hfirst⟩ := hloaded.exec_peek_afterBeat hrange hreach hr hpk ha (Nat.zero_lt_of_lt hk)
  obtain ⟨u, hu, hbeat⟩ := hfirst.after_edges hloaded hrange hreach k (by rwa [Nat.zero_add])
  rw [Nat.zero_add] at hbeat
  have haccept := eventStep_rclk_loaded h.whole hr hpk (i := .peek a) rfl (decide_eq_true ha) []
  refine ⟨u, (runEvents_cons_next (haccept.trans ht) _).trans hu, hbeat.rsp, ⟨fun hactive => ?_, fun hmore => ?_⟩,
    hbeat.overrunSeen⟩
  · refine lt_of_le_of_ne hk fun hlast => ?_
    simp [hbeat.done hlast] at hactive
  · rw [(hbeat.more hmore).1]

end Sys2Proof.Machine

/-! SUPPORT. A crossing as either clock domain sees it (45_synchronizer.md R124 to R131): what a synchronizer step and an
edge do to it, how a settled source fills its chain, and fair runs. -/

namespace Sys2Proof.Machine

/-- Settles O41: the last stage holds the code of its ghost, and the codes of pointers decode. -/
theorem viewsAreEarlierSourceValues : Obligations.ViewsAreEarlierSourceValues := fun _ h =>
  ⟨h.wv_eq, h.ws.viewAbs_le, h.rpv_eq, h.rs.viewAbs_le⟩

/-! ### The abstract synchronizers' steps (R129) -/

section SyncStep

theorem ChainInv.view_jump {p : Params} {src k : Nat} {c : SyncChain} (h : ChainInv p src c) (hsync : p.sync = .abstract)
    (hk : k ≤ src) (port : Port) (n : Nat) : (c.jump p k).view p port n = k % p.ptrMod := by
  rw [(h.jump hsync hk).view_eq, viewAbs_jump]

variable {s : State} {k : Nat} (hsync : s.params.sync = .abstract)
include hsync

theorem syncW2R_of_mem (hr : s.rrstN = true) (hlow : s.wvAbs ≤ k) (hhigh : k ≤ s.wAbs) :
    syncW2R (some k) s = .next { s with ws := s.ws.jump s.params k } := by
  simp [syncW2R, hsync, hr, hlow, hhigh]

theorem syncW2R_of_not_mem (hr : s.rrstN = true) (hk : k < s.wvAbs ∨ s.wAbs < k) :
    syncW2R (some k) s = .refused (.syncOutOfRange k) := by
  have hrange : ¬ (s.wvAbs ≤ k ∧ k ≤ s.wAbs) := by omega
  simp [syncW2R, hsync, hr, hrange]

theorem syncR2W_of_mem (hw : s.wrstN = true) (hlow : s.rpvAbs ≤ k) (hhigh : k ≤ s.rpAbs) :
    syncR2W (some k) s = .next { s with rs := s.rs.jump s.params k } := by
  simp [syncR2W, hsync, hw, hlow, hhigh]

theorem syncR2W_of_not_mem (hw : s.wrstN = true) (hk : k < s.rpvAbs ∨ s.rpAbs < k) :
    syncR2W (some k) s = .refused (.syncOutOfRange k) := by
  have hrange : ¬ (s.rpvAbs ≤ k ∧ k ≤ s.rpAbs) := by omega
  simp [syncR2W, hsync, hw, hrange]

end SyncStep

/-- Settles O43: in range the step is a jump of the chain, which decodes to its target; out of it the range test fails. -/
theorem syncStepMovesOnlyItsView : Obligations.SyncStepMovesOnlyItsView := by
  intro s k h hsync
  have hwhole (port : Port) (o : Host.Outcome State Fault Refusal) : unlessPartial port s o = o :=
    unlessPartial_whole port s o h.whole
  refine ⟨fun hr => ⟨fun hlow hhigh => ?_, fun hk => ?_⟩, fun hw => ⟨fun hlow hhigh => ?_, fun hk => ?_⟩⟩
  · exact ⟨_, (hwhole _ _).trans (syncW2R_of_mem hsync hr hlow hhigh), viewAbs_jump k,
      h.ws.view_jump hsync hhigh _ _, rfl⟩
  · exact (hwhole _ _).trans (syncW2R_of_not_mem hsync hr hk)
  · exact ⟨_, (hwhole _ _).trans (syncR2W_of_mem hsync hw hlow hhigh), viewAbs_jump k,
      h.rs.view_jump hsync hhigh _ _, rfl⟩
  · exact (hwhole _ _).trans (syncR2W_of_not_mem hsync hw hk)

/-! ### An edge of a chain (R124, R125) -/

section Capture

variable {p : Params} {c : SyncChain}

theorem capture_chains (hsync : p.sync = .chains) (n src srcAbs : Nat) :
    c.capture p n src srcAbs =
      ⟨SyncChain.shiftIn ((src :: c.held).getD (c.sampleBack n) src) c.stages,
        SyncChain.shiftIn (srcAbs - c.sampleBack n) c.abs, []⟩ := by
  simp [SyncChain.capture, hsync]

theorem shiftIn_eq_cons_dropLast {l : List Nat} (hl : l ≠ []) (x : Nat) :
    SyncChain.shiftIn x l = x :: l.dropLast := by
  have hlength : l.length = l.length - 1 + 1 := (Nat.sub_add_cancel (List.length_pos_iff.2 hl)).symm
  rw [SyncChain.shiftIn, hlength, List.take_succ_cons, ← List.dropLast_eq_take]

theorem sampleBack_of_held_nil (hheld : c.held = []) (n : Nat) : c.sampleBack n = 0 := by
  rw [SyncChain.sampleBack, hheld]

/-- The code that enters is the source's or one it held, and the source's where it held none. -/
theorem captured_mem (n src : Nat) :
    (src :: c.held).getD (c.sampleBack n) src ∈ src :: c.held ∧
      (c.held = [] → (src :: c.held).getD (c.sampleBack n) src = src) := by
  refine ⟨?_, fun hheld => by rw [sampleBack_of_held_nil hheld, List.getD_cons_zero]⟩
  rw [List.getD_eq_getElem _ _ (Nat.lt_succ_of_le (sampleBack_le n c))]
  exact List.getElem_mem _

theorem ChainInv.stages_ne_nil {src : Nat} (h : ChainInv p src c) : c.stages ≠ [] := by
  simp [h.stages, h.abs_ne_nil]

theorem ChainInv.stages_capture {src : Nat} (h : ChainInv p src c) (hsync : p.sync = .chains) (n code srcAbs : Nat) :
    ∃ x, x ∈ code :: c.held ∧ (c.capture p n code srcAbs).stages = x :: c.stages.dropLast ∧
      (c.held = [] → x = code) := by
  obtain ⟨hmem, hsettled⟩ := captured_mem (c := c) n code
  rw [capture_chains hsync]
  exact ⟨_, hmem, shiftIn_eq_cons_dropLast h.stages_ne_nil _, hsettled⟩

end Capture

/-- Out of reset every consumer command's edge is one step of the read domain. -/
theorem readEdge_running {s : State} (hr : s.rrstN = true) (e : ReadEffect) :
    ∃ e', readEdge e s = readCommit e' s := by
  obtain ⟨hr', -⟩ | ⟨-, -, he⟩ | ⟨-, -, he⟩ := readEdge_cases e s
  · simp [hr] at hr'
  · exact ⟨_, he⟩
  · exact ⟨_, he⟩

theorem writeEdge_running {s : State} (hw : s.wrstN = true) (cmd : Option Nat) :
    writeEdge cmd s = writeStep cmd s := if_pos hw

/-- Settles O44: out of reset an edge of a port is a capture of the chain that ends there. -/
theorem chainsShiftAndCaptureAHeldCode : Obligations.ChainsShiftAndCaptureAHeldCode := by
  intro s i h hsync
  refine ⟨_, exec_eq i s, fun hi hr => ?_, fun hi hw => ?_⟩
  · obtain ⟨e, he⟩ := readEdge_running hr (commandEffect s i)
    simp only [hi, he, readCommit_ws]
    exact h.ws.stages_capture hsync _ _ _
  · simp only [hi, writeEdge_running hw, writeStep_rs]
    exact h.rs.stages_capture hsync _ _ _

/-! ### The crossing into a domain -/

/-- The chain that ends in the domain of a port. -/
def State.crossing (s : State) : Port → SyncChain
  | .consumer => s.ws
  | .producer => s.rs

/-- The absolute count of the pointer that crosses into the domain of a port. -/
def State.source (s : State) : Port → Nat
  | .consumer => s.wAbs
  | .producer => s.rpAbs

/-- The domain of a port is out of reset. -/
def State.running (s : State) : Port → Bool
  | .consumer => s.rrstN
  | .producer => s.wrstN

/-- A rising edge of a port's clock. -/
def clockEdge : Port → Bool → Event
  | .consumer, present => .rclk present
  | .producer, present => .wclk present

theorem MachineInv.crossing {s : State} (h : MachineInv s) (port : Port) :
    ChainInv s.params (s.source port) (s.crossing port) := by
  cases port with
  | consumer => exact h.ws
  | producer => exact h.rs

/-- What no agent's step changes: the parameters, the reset pins and the schedule. -/
structure SameSetting (s t : State) : Prop where
  params : t.params = s.params
  wrstN : t.wrstN = s.wrstN
  rrstN : t.rrstN = s.rrstN
  sched : t.sched = s.sched

theorem SameSetting.refl (s : State) : SameSetting s s := ⟨rfl, rfl, rfl, rfl⟩

theorem SameSetting.trans {s t u : State} (h : SameSetting s t) (h' : SameSetting t u) : SameSetting s u :=
  ⟨h'.params.trans h.params, h'.wrstN.trans h.wrstN, h'.rrstN.trans h.rrstN, h'.sched.trans h.sched⟩

section AgentSteps

variable {s t : State} {e : Event}

theorem sameSetting_writeEdge (cmd : Option Nat) (s : State) : SameSetting s (writeEdge cmd s) := by
  obtain ⟨-, he⟩ | ⟨-, he⟩ := writeEdge_cases cmd s <;> rw [he] <;> exact ⟨rfl, rfl, rfl, rfl⟩

theorem sameSetting_readEdge (e : ReadEffect) (s : State) : SameSetting s (readEdge e s) := by
  obtain ⟨-, he⟩ | ⟨-, -, he⟩ | ⟨-, -, he⟩ := readEdge_cases e s <;> rw [he] <;> exact ⟨rfl, rfl, rfl, rfl⟩

theorem AgentStep.sameSetting (h : AgentStep s e t) : SameSetting s t := by
  cases h with
  | wclk => exact sameSetting_writeEdge _ _
  | rclk => exact sameSetting_readEdge _ _
  | _ => exact ⟨rfl, rfl, rfl, rfl⟩

theorem SameSetting.running (h : SameSetting s t) (port : Port) : t.running port = s.running port := by
  cases port with
  | consumer => exact h.rrstN
  | producer => exact h.wrstN

theorem eventStep_sameSetting (hagent : e.isAgentStep = true) (ht : eventStep e s = .next t) : SameSetting s t := by
  obtain ⟨wProg, rProg, hstep⟩ := eventStep_agentStep hagent ht
  exact { hstep.sameSetting with }

theorem MachineInv.after_agentEvent (h : MachineInv s) (hagent : e.isAgentStep = true) (ht : eventStep e s = .next t) :
    MachineInv t := by
  refine h.after_eventStep_of_ne_pins (fun w r he => ?_) ht
  rw [he] at hagent
  cases hagent

theorem MachineInv.viewAbs_le_agentEvent (h : MachineInv s) (hagent : e.isAgentStep = true)
    (ht : eventStep e s = .next t) (port : Port) : (s.crossing port).viewAbs ≤ (t.crossing port).viewAbs := by
  obtain ⟨wProg, rProg, hstep⟩ := eventStep_agentStep hagent ht
  obtain ⟨hwv, hrpv, -⟩ := (h.withDrivers wProg rProg s.sched s.draws).viewsAdvance_agentStep hstep
  cases port with
  | consumer => exact hwv
  | producer => exact hrpv

/-- No edge of a domain moves the pointer that crosses into it (20_memory.md R50). -/
theorem source_after_edge (port : Port) {present : Bool} (ht : eventStep (clockEdge port present) s = .next t) :
    t.source port = s.source port := by
  cases port with
  | consumer =>
    obtain ⟨wProg, rProg, hstep⟩ := eventStep_agentStep rfl ht
    obtain ⟨-, -, -, hw⟩ := hstep.sameWriteSide (by simp [clockEdge])
    exact hw
  | producer =>
    obtain ⟨wProg, rProg, hstep⟩ := eventStep_agentStep rfl ht
    obtain ⟨-, -, -, -, -, -, hrp⟩ := hstep.sameReadSide (by simp [clockEdge])
    exact hrp

/-- Where its source does not move, a write-domain edge leaves the chain `WS`. -/
theorem ws_writeEdge {cmd : Option Nat} (hsrc : (writeEdge cmd s).wAbs = s.wAbs) : (writeEdge cmd s).ws = s.ws := by
  obtain ⟨-, he⟩ | ⟨-, he⟩ := writeEdge_cases cmd s <;> rw [he] at hsrc ⊢
  cases cmd with
  | none => rfl
  | some v => simp [writeStep_wAbs] at hsrc

theorem rs_readCommit {e : ReadEffect} (hsrc : (readCommit e s).rpAbs = s.rpAbs) : (readCommit e s).rs = s.rs := by
  rw [readCommit_rpAbs] at hsrc
  rw [readCommit_rs]
  split at hsrc
  · simp at hsrc
  · next hlevel => exact if_neg hlevel

/-- Where its source does not move, a read-domain edge leaves the chain `RS`. -/
theorem rs_readEdge {e : ReadEffect} (hsrc : (readEdge e s).rpAbs = s.rpAbs) : (readEdge e s).rs = s.rs := by
  obtain ⟨-, he⟩ | ⟨-, -, he⟩ | ⟨-, -, he⟩ := readEdge_cases e s <;> rw [he] at hsrc ⊢
  · exact rs_readCommit hsrc
  · exact rs_readCommit hsrc

/-- Where its source does not move, a chain captures at an edge of its own clock and rests at every other step. -/
theorem AgentStep.crossing_chains (h : AgentStep s e t) (hsync : s.params.sync = .chains) {port : Port}
    (hrun : s.running port = true) (hsrc : t.source port = s.source port) :
    (∃ present code, e = clockEdge port present ∧
        t.crossing port = (s.crossing port).capture s.params s.draws code (s.source port)) ∨
      ((∀ present, e ≠ clockEdge port present) ∧ t.crossing port = s.crossing port) := by
  cases h with
  | wclk present i =>
    cases port with
    | consumer => exact .inr ⟨by simp [clockEdge], ws_writeEdge hsrc⟩
    | producer => exact .inl ⟨present, s.rpGray, rfl, by rw [writeEdge_running hrun]; rfl⟩
  | rclk present i =>
    cases port with
    | consumer =>
      obtain ⟨e', he⟩ := readEdge_running hrun (commandEffect s i)
      exact .inl ⟨present, s.wGray, rfl, by rw [he]; rfl⟩
    | producer => exact .inr ⟨by simp [clockEdge], rs_readEdge hsrc⟩
  | heldW2R _ habs | heldR2W _ habs => cases hsync.symm.trans habs
  | syncW2R _ _ habs | syncR2W _ _ habs => cases hsync.symm.trans habs

end AgentSteps

/-! ### A settled source (R128) -/

/-- A chain that has taken `j` edges of its clock while its source's count was `src`: no other code is held for a capture,
and the stages but the last one reached hold the source's. -/
structure SettledFor (src j : Nat) (c : SyncChain) : Prop where
  held : 0 < j → c.held = []
  front : ∀ a ∈ c.abs.take (j - 1), a = src

namespace SettledFor

variable {p : Params} {src j : Nat} {c : SyncChain}

theorem zero (src : Nat) (c : SyncChain) : SettledFor src 0 c := ⟨by simp, by simp⟩

theorem of_succ (h : SettledFor src (j + 1) c) : SettledFor src j c where
  held _ := h.held (Nat.succ_pos j)
  front a ha := h.front a (List.take_subset_take_left c.abs (Nat.sub_le j 1) ha)

variable (h : SettledFor src j c)
include h

/-- The first edge empties the window; from then on the source's count enters. -/
theorem capture (hsync : p.sync = .chains) (n code : Nat) : SettledFor src (j + 1) (c.capture p n code src) := by
  rw [capture_chains hsync]
  refine ⟨fun _ => rfl, fun a ha => ?_⟩
  cases j with
  | zero => simp at ha
  | succ j =>
    rw [sampleBack_of_held_nil (h.held (Nat.succ_pos j)), Nat.sub_zero, Nat.add_sub_cancel] at ha
    dsimp only [SyncChain.shiftIn] at ha
    rw [List.take_take, Nat.min_comm, ← List.take_take] at ha
    have hfront : a ∈ (src :: c.abs).take (j + 1) := List.mem_of_mem_take ha
    obtain rfl | hold := List.mem_cons.1 hfront
    · rfl
    · exact h.front a hold

/-- After S + 1 edges the view is the source. -/
theorem viewAbs_eq (hinv : ChainInv p src c) (hj : p.syncStages < j) : c.viewAbs = src := by
  have hall : c.abs.take (j - 1) = c.abs := List.take_of_length_le (by rw [hinv.length]; omega)
  exact h.front _ (hall.symm ▸ hinv.viewAbs_mem)

end SettledFor

theorem eventStep_crossing_chains {s t : State} {e : Event} (hagent : e.isAgentStep = true)
    (ht : eventStep e s = .next t) (hsync : s.params.sync = .chains) {port : Port} (hrun : s.running port = true)
    (hsrc : t.source port = s.source port) :
    (∃ present code, e = clockEdge port present ∧
        t.crossing port = (s.crossing port).capture s.params s.draws code (s.source port)) ∨
      ((∀ present, e ≠ clockEdge port present) ∧ t.crossing port = s.crossing port) := by
  obtain ⟨wProg, rProg, hstep⟩ := eventStep_agentStep hagent ht
  cases port with
  | consumer => exact hstep.crossing_chains hsync (port := .consumer) hrun hsrc
  | producer => exact hstep.crossing_chains hsync (port := .producer) hrun hsrc

/-- An agent's step that leaves the source keeps a chain settled, and an edge of its clock settles it further. -/
theorem SettledFor.after_agentEvent {s t : State} {e : Event} {port : Port} {j : Nat} (hagent : e.isAgentStep = true)
    (ht : eventStep e s = .next t) (hsync : s.params.sync = .chains) (hrun : s.running port = true)
    (hsrc : t.source port = s.source port) (hset : SettledFor (s.source port) j (s.crossing port)) :
    SettledFor (t.source port) j (t.crossing port) ∧
      ((∃ present, e = clockEdge port present) → SettledFor (t.source port) (j + 1) (t.crossing port)) := by
  rw [hsrc]
  obtain ⟨present, code, rfl, hcross⟩ | ⟨hne, hcross⟩ := eventStep_crossing_chains hagent ht hsync hrun hsrc <;>
    rw [hcross]
  · have hnext := hset.capture hsync s.draws code
    exact ⟨hnext.of_succ, fun _ => hnext⟩
  · exact ⟨hset, fun ⟨present, he⟩ => absurd he (hne present)⟩

theorem clockEdge_isAgentStep (port : Port) (present : Bool) : (clockEdge port present).isAgentStep = true := by
  cases port <;> rfl

theorem eventStep_clockEdge_next {s : State} (hwhole : s.resetAlone = none) (port : Port) :
    ∃ t, eventStep (clockEdge port false) s = .next t := by
  cases port with
  | consumer =>
    obtain ⟨t, ht⟩ := exec_next s .rNop
    exact ⟨t, (eventStep_rclk_not_presented hwhole).trans ht⟩
  | producer =>
    obtain ⟨t, ht⟩ := exec_next s .wNop
    exact ⟨t, by rw [clockEdge, eventStep_wclk hwhole, fetchW_idle (.inl rfl), runFetched, ht]⟩

/-- `n` edges of a clock with nothing presented settle the chain it clocks by `n`. -/
theorem MachineInv.settledFor_after_edges {s : State} (h : MachineInv s) (hsync : s.params.sync = .chains) {port : Port}
    (hrun : s.running port = true) (n : Nat) {j : Nat} (hset : SettledFor (s.source port) j (s.crossing port)) :
    ∃ t, runEvents (List.replicate n (clockEdge port false)) s = .next t ∧ MachineInv t ∧ t.params = s.params ∧
      t.source port = s.source port ∧ SettledFor (t.source port) (j + n) (t.crossing port) := by
  induction n generalizing s j with
  | zero => exact ⟨s, rfl, h, rfl, rfl, hset⟩
  | succ n ih =>
    have hagent := clockEdge_isAgentStep port false
    obtain ⟨t, ht⟩ := eventStep_clockEdge_next h.whole port
    have hsame := eventStep_sameSetting hagent ht
    have hsrc := source_after_edge port ht
    have hnext := (hset.after_agentEvent hagent ht hsync hrun hsrc).2 ⟨false, rfl⟩
    obtain ⟨u, hu, hinv, hp, hsrc', hend⟩ := ih (h.after_agentEvent hagent ht) (hsame.params ▸ hsync)
      ((hsame.running port).trans hrun) hnext
    exact ⟨u, (runEvents_cons_next ht _).trans hu, hinv, hp.trans hsame.params, hsrc'.trans hsrc,
      by rwa [Nat.add_right_comm, Nat.add_assoc] at hend⟩

theorem MachineInv.settled_after_edges {s : State} (h : MachineInv s) (hsync : s.params.sync = .chains) (port : Port)
    (hrun : s.running port = true) :
    ∃ t, runEvents (List.replicate (s.params.syncStages + 1) (clockEdge port false)) s = .next t ∧ MachineInv t ∧
      t.params = s.params ∧ (t.crossing port).viewAbs = s.source port := by
  obtain ⟨t, ht, hinv, hp, hsrc, hend⟩ :=
    h.settledFor_after_edges hsync hrun (s.params.syncStages + 1) (SettledFor.zero _ _)
  exact ⟨t, ht, hinv, hp, (hend.viewAbs_eq (hinv.crossing port) (by rw [hp]; omega)).trans hsrc⟩

/-- Settles O45: S + 1 edges fill the chain with the source's count, whose code decodes to the pointer. -/
theorem settledSourceReachesTheView : Obligations.SettledSourceReachesTheView := by
  intro s h hsync
  refine ⟨fun hr => ?_, fun hw => ?_⟩
  · obtain ⟨t, ht, hinv, hp, hview⟩ := h.settled_after_edges hsync .consumer hr
    have hview : t.ws.viewAbs = s.wAbs := hview
    exact ⟨t, ht, by rw [hinv.ws.lastStage_eq, hview, hp, h.wGray_eq],
      by rw [hinv.wv_eq, State.wvAbs, hview, hp, h.wBin], hview⟩
  · obtain ⟨t, ht, hinv, hp, hview⟩ := h.settled_after_edges hsync .producer hw
    have hview : t.rs.viewAbs = s.rpAbs := hview
    exact ⟨t, ht, by rw [hinv.rs.lastStage_eq, hview, hp, h.rpGray_eq],
      by rw [hinv.rpv_eq, State.rpvAbs, hview, hp, h.rpBin], hview⟩

/-! ### Weakly fair runs (R131) -/

section Fair

variable {run : Nat → State} {events : Nat → Event} (hfair : FairRun run events)
include hfair

theorem FairRun.machineInv (h : MachineInv (run 0)) (n : Nat) : MachineInv (run n) := by
  induction n with
  | zero => exact h
  | succ n ih => exact ih.after_agentEvent (hfair.agents n) (hfair.steps n)

theorem FairRun.sameSetting (n : Nat) : SameSetting (run 0) (run n) := by
  induction n with
  | zero => exact .refl _
  | succ n ih => exact ih.trans (eventStep_sameSetting (hfair.agents n) (hfair.steps n))

theorem FairRun.edge (port : Port) (n : Nat) : ∃ m, n ≤ m ∧ ∃ present, events m = clockEdge port present := by
  cases port with
  | consumer => exact hfair.readDomain n
  | producer => exact hfair.writeDomain n

/-- Under the abstract synchronizers a view behind its source gets nearer to it, sooner or later. -/
theorem FairRun.move {port : Port} (hsync : (run 0).params.sync = .abstract) (hrun : (run 0).running port = true)
    (n : Nat) : ∃ m, n ≤ m ∧ ((run m).source port ≤ ((run m).crossing port).viewAbs ∨
      ((run m).crossing port).viewAbs < ((run (m + 1)).crossing port).viewAbs) := by
  have hsync (m : Nat) : (run m).params.sync = .abstract := by rw [(hfair.sameSetting m).params, hsync]
  have hrun (m : Nat) : (run m).running port = true := ((hfair.sameSetting m).running port).trans hrun
  cases port with
  | consumer =>
    obtain ⟨m, hm, hstuck | ⟨-, hmove⟩⟩ := hfair.syncW2R n
    · exact ⟨m, hm, .inl (not_lt.1 fun hlt => hstuck ⟨hsync m, hrun m, hlt⟩)⟩
    · exact ⟨m, hm, .inr hmove⟩
  | producer =>
    obtain ⟨m, hm, hstuck | ⟨-, hmove⟩⟩ := hfair.syncR2W n
    · exact ⟨m, hm, .inl (not_lt.1 fun hlt => hstuck ⟨hsync m, hrun m, hlt⟩)⟩
    · exact ⟨m, hm, .inr hmove⟩

variable (h : MachineInv (run 0))
include h

theorem FairRun.viewAbs_mono (port : Port) : Monotone fun n => ((run n).crossing port).viewAbs :=
  monotone_nat_of_le_succ fun n =>
    (hfair.machineInv h n).viewAbs_le_agentEvent (hfair.agents n) (hfair.steps n) port

variable {port : Port} (hrun : (run 0).running port = true) {start : Nat}
  (hconst : ∀ n, start ≤ n → (run n).source port = (run start).source port)
include hrun hconst

/-- Abstract synchronizers: the distance to the settled source falls until it is 0. -/
theorem FairRun.catchesUp_abstract (hsync : (run 0).params.sync = .abstract) :
    ∃ m, start ≤ m ∧ (run start).source port ≤ ((run m).crossing port).viewAbs := by
  have hnearer (d : Nat) :
      ∃ m, start ≤ m ∧ (run start).source port ≤ ((run m).crossing port).viewAbs + ((run start).source port - d) := by
    induction d with
    | zero => exact ⟨start, le_rfl, by omega⟩
    | succ d ih =>
      obtain ⟨n, hn, hd⟩ := ih
      obtain ⟨m, hm, hcaught | hmove⟩ := hfair.move hsync hrun n
      · rw [hconst m (hn.trans hm)] at hcaught
        exact ⟨m, hn.trans hm, hcaught.trans (Nat.le_add_right _ _)⟩
      · have hmono : ((run n).crossing port).viewAbs ≤ ((run m).crossing port).viewAbs :=
          hfair.viewAbs_mono h port hm
        exact ⟨m + 1, by omega, by omega⟩
  obtain ⟨m, hm, hall⟩ := hnearer ((run start).source port)
  exact ⟨m, hm, by simpa using hall⟩

omit h in
/-- Chains: each further edge settles the chain by one more stage, and no step unsettles it. -/
theorem FairRun.eventually_settledFor (hsync : (run 0).params.sync = .chains) (j : Nat) :
    ∃ m, start ≤ m ∧ ∀ n, m ≤ n → SettledFor ((run n).source port) j ((run n).crossing port) := by
  have hafter {n i : Nat} (hn : start ≤ n) (hset : SettledFor ((run n).source port) i ((run n).crossing port)) :=
    hset.after_agentEvent (hfair.agents n) (hfair.steps n) (by rw [(hfair.sameSetting n).params, hsync])
      (((hfair.sameSetting n).running port).trans hrun)
      ((hconst (n + 1) (by omega)).trans (hconst n hn).symm)
  induction j with
  | zero => exact ⟨start, le_rfl, fun n _ => .zero _ _⟩
  | succ j ih =>
    obtain ⟨m, hm, hset⟩ := ih
    obtain ⟨k, hk, hedge⟩ := hfair.edge port m
    refine ⟨k + 1, by omega, fun n hn => ?_⟩
    induction n, hn using Nat.le_induction with
    | base => exact (hafter (hm.trans hk) (hset k hk)).2 hedge
    | succ n hn ih => exact (hafter (by omega) ih).1

/-- In a fair run the view of a settled source comes to it and stays there. -/
theorem FairRun.viewAbs_eventually_eq :
    ∃ m, start ≤ m ∧ ∀ n, m ≤ n → ((run n).crossing port).viewAbs = (run n).source port := by
  cases hsync : (run 0).params.sync with
  | abstract =>
    obtain ⟨m, hm, hcaught⟩ := hfair.catchesUp_abstract h hrun hconst hsync
    refine ⟨m, hm, fun n hn => le_antisymm ((hfair.machineInv h n).crossing port).viewAbs_le ?_⟩
    rw [hconst n (hm.trans hn)]
    exact hcaught.trans (hfair.viewAbs_mono h port hn)
  | chains =>
    obtain ⟨m, hm, hset⟩ := hfair.eventually_settledFor hrun hconst hsync ((run 0).params.syncStages + 1)
    refine ⟨m, hm, fun n hn => (hset n hn).viewAbs_eq ((hfair.machineInv h n).crossing port) ?_⟩
    rw [(hfair.sameSetting n).params]
    exact Nat.lt_succ_self _

end Fair

/-- In range a LENGTH accepted with the view caught up reports the level-A occupancy (R103). -/
theorem MachineInv.exec_length_caughtUp {s : State} (h : MachineInv s) (hr : s.rrstN = true) (hrange : s.inRange)
    (hpk : s.pk.active = false) (hcaught : s.caughtUp) :
    ∃ t, exec .length s = .next t ∧ t.rsp = ⟨true, false, 0, s.occA, false, true⟩ := by
  obtain ⟨t, ht, -, hrsp, -⟩ := lengthReportsTheCount s hr hpk
  obtain ⟨-, -, hocc, -⟩ := readCountIsAtMostTheOccupancy s h hr hrange
  have hcount : s.cnt = s.occA := by simpa [State.rCount, hr] using hocc hcaught
  exact ⟨t, ht, hcount ▸ hrsp⟩

/-- Settles O60: both views by the one argument about a crossing, and LENGTH by the count of a view caught up. -/
theorem fairRunsCatchUp : Obligations.FairRunsCatchUp := by
  intro run events start hfair h
  refine ⟨fun hr hconst => ?_, fun hw hconst => hfair.viewAbs_eventually_eq h (port := .producer) hw hconst⟩
  obtain ⟨m, hm, hcaught⟩ := hfair.viewAbs_eventually_eq h (port := .consumer) hr hconst
  exact ⟨m, hm, fun n hn => ⟨hcaught n hn, fun hrange hpk =>
    (hfair.machineInv h n).exec_length_caughtUp ((hfair.sameSetting n).rrstN.trans hr) hrange hpk (hcaught n hn)⟩⟩

end Sys2Proof.Machine

/-! SUPPORT. One consumer command against the level-A state its view stands for (45_synchronizer.md R132): what the
command sees, and that its first beat is the operation's. -/

namespace Sys2Proof.Machine

/-! ### What a consumer command sees -/

/-- A consumer command accepted at `s` sees the level-A state `a`: its indices are the view's and the effective tail's,
and it holds every element between them that no later write has reached. -/
structure SeenAs (s : State) (a : RefState) : Prop where
  cap : a.cap = s.params.cap
  dataW : a.dataW = s.params.dataW
  head : a.head = s.wvAbs % s.params.cap
  tail : a.tail = s.effTailAbs % s.params.cap
  element : ∀ pos, s.effTailAbs ≤ pos → pos < s.wvAbs → s.wAbs < pos + s.params.cap →
    a.storage.read s.params.dataW (pos % s.params.cap) = s.storage.read s.params.dataW (pos % s.params.cap)

/-- In range the count is the exact number of elements from the effective tail to the view. -/
theorem MachineInv.effTailAbs_add_cnt {s : State} (h : MachineInv s) (hrange : s.inRange) :
    s.effTailAbs + s.cnt = s.wvAbs := by
  have hview := h.behindView
  have hlag : s.lag = s.wvAbs - s.rAbs := Nat.mod_eq_of_lt (Nat.sub_lt_left_of_lt_add hview hrange)
  rw [effTailAbs_eq hrange, Nat.add_assoc, h.skip_add_cnt, hlag, Nat.add_sub_cancel' hview]

namespace SeenAs

variable {s : State} {a : RefState} (hseen : SeenAs s a)
include hseen

theorem inv : a.Inv := by
  have hlt (n : Nat) : n % s.params.cap < s.params.cap := Nat.mod_lt n s.params.cap_pos
  refine ⟨?_, ?_, ?_⟩ <;> rw [hseen.cap]
  · exact s.params.two_le_cap
  · exact hseen.head ▸ hlt _
  · exact hseen.tail ▸ hlt _

variable (h : MachineInv s) (hrange : s.inRange)
include h hrange

theorem occ_eq : a.occ = s.cnt := by
  have hcap := s.params.two_le_cap
  have hle := h.cnt_le
  refine (hseen.inv.occ_eq_iff (by rw [hseen.cap]; omega)).2 ?_
  rw [hseen.tail, hseen.cap, hseen.head, Nat.mod_add_mod, h.effTailAbs_add_cnt hrange]

omit hrange in
/-- An element the writer has not reached is the level-A one (70_reset_and_hazards.md R162). -/
theorem readElem_eq {pos : Nat} (hlow : s.effTailAbs ≤ pos) (hhigh : pos < s.wvAbs)
    (hreach : s.wAbs < pos + s.params.cap) :
    readElem s (pos % s.params.ptrMod) = a.storage.read a.dataW (pos % a.cap) := by
  obtain ⟨hread, -⟩ := unreachedElementsAreReadExactly s pos h (hhigh.trans_le h.ws.viewAbs_le)
  rw [(hread hreach).1, hseen.cap, hseen.dataW, hseen.element pos hlow hhigh hreach]

/-- The element at the effective tail is the level-A oldest. -/
theorem readElem_effTail (hcnt : 0 < s.cnt) (hreach : overrunAt s s.effTailAbs = false) :
    readElem s s.effTail = a.storage.read a.dataW (a.tail % a.cap) := by
  have hend := h.effTailAbs_add_cnt hrange
  rw [h.effTail_eq_mod hrange, hseen.readElem_eq h le_rfl (by omega) (not_le.1 (of_decide_eq_false hreach)), hseen.tail,
    hseen.cap, Nat.mod_mod]

/-- The element of GET_NTH is the level-A one of the same index. -/
theorem readElem_nth {i : Nat} (hi : i < s.cnt) (hreach : overrunNth s i = false) :
    readElem s (pgSub s.params s.wv (i + 1)) = a.storage.read a.dataW ((a.head + a.cap - 1 - i) % a.cap) := by
  have hend := h.effTailAbs_add_cnt hrange
  have hcnt := h.cnt_le
  have hcap := s.params.two_le_cap
  have hreach : ¬ s.wvAbs + s.params.cap ≤ s.wAbs + 1 + i := of_decide_eq_false hreach
  have hslot : (a.head + a.cap - 1 - i) % a.cap = (s.wvAbs - (i + 1)) % a.cap := by
    have hback : s.wvAbs % s.params.cap + s.params.cap - 1 - i = s.wvAbs % s.params.cap + (s.params.cap - 1 - i) := by
      omega
    have hwrapped : s.wvAbs + (s.params.cap - 1 - i) = s.wvAbs - (i + 1) + s.params.cap := by omega
    rw [hseen.cap, hseen.head, hback, Nat.mod_add_mod, hwrapped, Nat.add_mod_right]
  rw [h.wv_eq, pgSub_mod _ (by omega), hseen.readElem_eq h (by omega) (by omega) (by omega), hslot]

end SeenAs

/-! ### The beats of a PEEK (44_read_port.md R118, R119) -/

/-- The beats from `j` on of a PEEK response of `n` elements, element `i` being `val i`. -/
def streamBeats (n : Nat) (trunc : Bool) (val : Nat → Nat) (j : Nat) : List ExpectedBeat :=
  (List.range' j (n - j)).map fun i => ⟨⟨true, true, val i, n, trunc, decide (i + 1 = n)⟩, false⟩

theorem streamBeats_of_lt {n j : Nat} (hj : j < n) (trunc : Bool) (val : Nat → Nat) :
    streamBeats n trunc val j =
      ⟨⟨true, true, val j, n, trunc, decide (j + 1 = n)⟩, false⟩ :: streamBeats n trunc val (j + 1) := by
  have hmore : n - j = n - (j + 1) + 1 := by omega
  rw [streamBeats, hmore, List.range'_succ, List.map_cons, streamBeats]

theorem dataBeats_range' {n j k : Nat} (hn : j + k = n) (trunc : Bool) (val : Nat → Nat) :
    dataBeats n trunc ((List.range' j k).map val) = streamBeats n trunc val j := by
  induction k generalizing j with
  | zero =>
    subst hn
    simp [streamBeats, dataBeats]
  | succ k ih =>
    have hlast : ((List.range' (j + 1) k).map val).isEmpty = decide (j + 1 = n) := by
      rw [Bool.eq_iff_iff]
      simp only [List.isEmpty_iff, List.map_eq_nil_iff, List.range'_eq_nil_iff, decide_eq_true_eq]
      omega
    rw [List.range'_succ, List.map_cons, dataBeats, hlast, ih (by omega), streamBeats_of_lt (j := j) (by omega)]

/-- The level-A element `i` from the tail. -/
def RefState.fromTail (a : RefState) (i : Nat) : Nat := a.storage.read a.dataW ((a.tail + i) % a.cap)

theorem peekBeats_oldest (a : RefState) {n : Nat} (hn : 0 < n) (trunc : Bool) :
    peekBeats (a.oldest n, trunc) = streamBeats n trunc a.fromTail 0 := by
  have hbeats : dataBeats n trunc (a.oldest n) = _ :=
    List.range_eq_range' (n := n) ▸ dataBeats_range' (Nat.zero_add n) trunc a.fromTail
  have hlength := a.length_oldest n
  rw [peekBeats]
  cases hl : a.oldest n with
  | nil => simp [hl] at hlength; omega
  | cons v rest =>
    rw [hl] at hbeats hlength
    rw [← hbeats, ← hlength, List.length_cons]

/-! ### The first beat of each command (R132) -/

/-- The response registers show the first of an operation's beats. -/
def FirstBeatShown (beats : List ExpectedBeat) (r : Response) : Prop :=
  ∃ e rest, beats = e :: rest ∧ e.shownBy r = true

theorem firstBeatShown_self (r : Response) (rest : List ExpectedBeat) : FirstBeatShown (⟨r, false⟩ :: rest) r :=
  ⟨_, rest, rfl, by simp [ExpectedBeat.shownBy]⟩

namespace SeenAs

variable {s : State} {a : RefState} (hseen : SeenAs s a) (h : MachineInv s) (hrange : s.inRange)
include hseen h hrange

theorem peek_eq (m : Nat) : a.peek m = (a.oldest (min s.cnt m), truncated s.cnt m) := by
  rw [RefState.peek, hseen.occ_eq h hrange, truncated]

theorem firstBeat_peek {m : Nat} (hover : (peekEffect m s).overrun = false) :
    FirstBeatShown (peekBeats (a.peek m)) (peekEffect m s).rsp := by
  rw [hseen.peek_eq h hrange]
  obtain hn | hn := eq_or_ne (min s.cnt m) 0
  · rw [peekEffect_of_zero hn, hn]
    exact firstBeatShown_self _ _
  · rw [peekEffect_of_ne_zero hn] at hover ⊢
    have hpos := Nat.pos_of_ne_zero hn
    have hdata := hseen.readElem_effTail h hrange (by omega) hover
    rw [peekBeats_oldest _ hpos, streamBeats_of_lt hpos, RefState.fromTail, Nat.add_zero, ← hdata, Nat.zero_add]
    simp only [eq_comm (a := 1)]
    exact firstBeatShown_self _ _

theorem firstBeat_getNth {i : Nat} (hover : (getNthEffect i s).overrun = false) :
    FirstBeatShown [⟨⟨true, true, a.getNth 0 i, 0, false, true⟩, decide (a.occ ≤ i)⟩] (getNthEffect i s).rsp := by
  have hocc := hseen.occ_eq h hrange
  obtain hi | hi := Nat.lt_or_ge i s.cnt
  · rw [getNthEffect_of_lt hi] at hover ⊢
    rw [hseen.inv.getNth_of_lt 0 (hocc ▸ hi), ← hseen.readElem_nth h hrange hi hover, decide_eq_false (by omega)]
    exact firstBeatShown_self _ _
  · rw [getNthEffect_of_le hi, decide_eq_true (hocc ▸ hi)]
    exact ⟨_, [], rfl, by simp [ExpectedBeat.shownBy]⟩

theorem firstBeat_getNthChecked {i : Nat} (hover : (getNthCheckedEffect i s).overrun = false) :
    FirstBeatShown [checkedBeat (a.getNthChecked i)] (getNthCheckedEffect i s).rsp := by
  have hocc := hseen.occ_eq h hrange
  obtain hi | hi := Nat.lt_or_ge i s.cnt
  · rw [getNthCheckedEffect_of_lt hi, getNthEffect_of_lt hi] at hover ⊢
    rw [RefState.getNthChecked, if_pos (hocc ▸ hi), ← hseen.readElem_nth h hrange hi hover]
    exact firstBeatShown_self _ _
  · rw [getNthCheckedEffect_of_le hi, RefState.getNthChecked, if_neg (by omega)]
    exact firstBeatShown_self _ _

/-- A consumer command whose element no write has reached answers with the first beat of the level-A operation. -/
theorem firstBeat_command {i : Instr} (hi : i.port = .consumer) (hfits : i.wellFormed s.params = true)
    (hover : (commandEffect s i).overrun = false) :
    FirstBeatShown (refCommand i a).1 (commandEffect s i).rsp := by
  cases i with
  | wNop | write => cases hi
  | rNop | deleteOldest => exact firstBeatShown_self _ _
  | length =>
    rw [refCommand, RefState.length, hseen.occ_eq h hrange]
    exact firstBeatShown_self _ _
  | peek m =>
    rw [commandEffect, argOperand_of_lt (of_decide_eq_true hfits)] at hover ⊢
    exact hseen.firstBeat_peek h hrange hover
  | getNth i =>
    rw [commandEffect, argOperand_of_lt (of_decide_eq_true hfits)] at hover ⊢
    exact hseen.firstBeat_getNth h hrange hover
  | getNthChecked i =>
    rw [commandEffect, argOperand_of_lt (of_decide_eq_true hfits)] at hover ⊢
    exact hseen.firstBeat_getNthChecked h hrange hover

end SeenAs

/-! ### A view caught up -/

/-- The assignment of DELETE_OLDEST moves the tail alone. -/
theorem RefState.Inv.deleteOldest_eq {a : RefState} (h : a.Inv) (k : Nat) :
    a.deleteOldest k = { a with tail := (a.tail + min k a.occ) % a.cap } :=
  calc a.deleteOldest k
      = { a with tail := (a.tail + min k a.occ) % a.cap, head := (a.deleteOldest k).head } := rfl
    _ = _ := by rw [h.head_deleteOldest]

section CaughtUp

variable {s : State} (hcaught : s.caughtUp)
include hcaught

theorem effTailAbs_of_caughtUp : s.effTailAbs = s.tAbs := by rw [State.effTailAbs, hcaught, State.tAbs]

theorem seenAs_levelA : SeenAs s s.levelA where
  cap := rfl
  dataW := rfl
  head := by rw [State.levelA, hcaught]
  tail := by rw [State.levelA, effTailAbs_of_caughtUp hcaught]
  element _ _ _ _ := rfl

variable (h : MachineInv s)
include h

/-- The writer is within reach of every element of a view caught up. -/
theorem MachineInv.command_not_overrun (i : Instr) : (commandEffect s i).overrun = false := by
  have hwindow := h.tAbs_window.2
  have hcnt := h.cnt_le
  have hcap := s.params.two_le_cap
  have hpeek : overrunAt s s.effTailAbs = false :=
    decide_eq_false (by rw [effTailAbs_of_caughtUp hcaught]; exact hwindow.not_ge)
  have hnth {i : Nat} (hi : i < s.cnt) : overrunNth s i = false :=
    decide_eq_false (by rw [hcaught]; omega)
  have hgetNth (i : Nat) : (getNthEffect i s).overrun = false := by
    obtain hi | hi := Nat.lt_or_ge i s.cnt
    · rw [getNthEffect_of_lt hi]; exact hnth hi
    · rw [getNthEffect_of_le hi]; rfl
  cases i with
  | peek m =>
    rw [commandEffect, peekEffect]
    split
    · rfl
    · exact hpeek
  | getNth i => exact hgetNth _
  | getNthChecked i =>
    rw [commandEffect]
    obtain hi | hi := Nat.lt_or_ge (argOperand s.params i) s.cnt
    · rw [getNthCheckedEffect_of_lt hi]; exact hgetNth _
    · rw [getNthCheckedEffect_of_le hi]; rfl
  | wNop | write | rNop | deleteOldest | length => rfl

variable (hrange : s.inRange)
include hrange

/-- With the view caught up DELETE_OLDEST is the level-A delete. -/
theorem MachineInv.levelA_delete (k : Nat) :
    (readCommit (deleteEffect k s) s).levelA = s.levelA.deleteOldest k := by
  have hseen := seenAs_levelA hcaught
  have hrAbs : (readCommit (deleteEffect k s) s).rAbs = s.tAbs + min k s.cnt := by
    rw [h.readCommit_rAbs_eq (h.effectInv_delete k), ← effTailAbs_of_caughtUp hcaught, effTailAbs_eq hrange,
      Nat.add_assoc]
  have htAbs : (readCommit (deleteEffect k s) s).tAbs = s.tAbs + min k s.cnt := by
    rw [State.tAbs, hrAbs, readCommit_wAbs, readCommit_params]
    exact max_eq_left ((Nat.le_max_right _ _).trans (Nat.le_add_right _ _))
  rw [hseen.inv.deleteOldest_eq, hseen.occ_eq h hrange]
  simp [State.levelA, htAbs]

theorem MachineInv.levelA_command {i : Instr} (hi : i.port = .consumer) (hfits : i.wellFormed s.params = true) :
    (readCommit (commandEffect s i) s).levelA = (refCommand i s.levelA).2 := by
  cases i with
  | wNop | write => cases hi
  | deleteOldest k =>
    rw [commandEffect, argOperand_of_lt (of_decide_eq_true hfits)]
    exact h.levelA_delete hcaught hrange k
  | rNop | peek | length | getNth | getNthChecked =>
    exact (h.levelA_readCommit (h.effectInv_command_of_ne_delete (by simp))).1

end CaughtUp

/-- Settles O56: the command sees the level-A state itself, with no element within a writer's reach. -/
theorem caughtUpCommandAnswersAsLevelA : Obligations.CaughtUpCommandAnswersAsLevelA := by
  intro s i h hr hpk hcaught hrange hi hfits
  obtain ⟨e, beats, hbeats, hshown⟩ :=
    (seenAs_levelA hcaught).firstBeat_command h hrange hi hfits (h.command_not_overrun hcaught i)
  exact ⟨_, e, beats, exec_consumer_ready hi hr hpk, hbeats, hshown, h.levelA_command hcaught hrange hi hfits⟩

end Sys2Proof.Machine

/-! SUPPORT. The level-A run built beside a level-C run (45_synchronizer.md R132, log 21): what the monitor's level-A state
stands for between two read commands, what a streaming PEEK owes, and that every agent's step keeps both while no hazard
is seen. -/

namespace Sys2Proof.Machine

/-! ### Writes at level A that are placed late -/

namespace RefState

@[simp] theorem cap_write (vs : List Nat) (a : RefState) : (a.write vs).cap = a.cap := by
  induction vs generalizing a with
  | nil => rfl
  | cons v rest ih => exact ih _

@[simp] theorem dataW_write (vs : List Nat) (a : RefState) : (a.write vs).dataW = a.dataW := by
  induction vs generalizing a with
  | nil => rfl
  | cons v rest ih => exact ih _

theorem write_append (xs ys : List Nat) (a : RefState) : a.write (xs ++ ys) = (a.write xs).write ys := by
  induction xs generalizing a with
  | nil => rfl
  | cons v rest ih => exact ih _

/-- Where writes go does not depend on the tail. -/
theorem storage_write_of_tail (vs : List Nat) (a : RefState) (tail : Nat) :
    ({ a with tail := tail }.write vs).storage = (a.write vs).storage := by
  induction vs generalizing a tail with
  | nil => rfl
  | cons v rest ih => exact ih (a.write1 v) _

/-- Writes that stop short of the slot of position `pos`, one round later, leave its element. -/
theorem read_write_of_reach {a : RefState} {n pos : Nat} (vs : List Nat) (hhead : a.head = n % a.cap) (hpos : pos < n)
    (hreach : n + vs.length ≤ pos + a.cap) :
    (a.write vs).storage.read a.dataW (pos % a.cap) = a.storage.read a.dataW (pos % a.cap) := by
  induction vs generalizing a n with
  | nil => rfl
  | cons v rest ih =>
    rw [List.length_cons] at hreach
    have hslot : pos % a.cap ≠ a.head := fun hmeets => by
      have := (mod_eq_mod_iff_of_window hpos (by omega)).1 (hhead ▸ hmeets.symm)
      omega
    have hhead' : (a.write1 v).head = (n + 1) % a.cap := by rw [write1, hhead, Nat.mod_add_mod]
    have hreach' : n + 1 + rest.length ≤ pos + a.cap := by omega
    have hrest := ih (a := a.write1 v) hhead' (Nat.lt_succ_of_lt hpos) hreach'
    exact hrest.trans (Storage.read_write_other _ _ _ _ _ hslot)

end RefState

namespace CountsMatch

variable {c : Counts} {a : RefState} (h : CountsMatch c a)
include h

theorem inv (hcap : 2 ≤ a.cap) : a.Inv := by
  have hpos : 0 < a.cap := Nat.zero_lt_two.trans_le hcap
  exact ⟨hcap, h.headIdx ▸ Nat.mod_lt _ hpos, h.tailIdx ▸ Nat.mod_lt _ hpos⟩

theorem after_writes (ha : a.Inv) (vs : List Nat) :
    ∃ tail, CountsMatch ⟨c.written + vs.length, tail, c.afterDelete⟩ (a.write vs) := by
  induction vs generalizing c a with
  | nil => exact ⟨c.tail, h⟩
  | cons v rest ih =>
    obtain ⟨tail, hend⟩ := ih (h.after_write ha v) (ha.after_write1 v)
    refine ⟨tail, ?_⟩
    rwa [Counts.run, Counts.run, Nat.add_right_comm, Nat.add_assoc] at hend

end CountsMatch

/-! ### The monitor's level-A state -/

/-- The level-A state of the monitor has seen the first `m.placed` writes of `s` and its deletes, in counts `c`; the other
writes wait in `m.pending`. The read pointer may have been normalised since the last delete, up to the view. -/
structure Placed (s : State) (c : Counts) (m : Shadow) : Prop where
  cap : m.ref.cap = s.params.cap
  dataW : m.ref.dataW = s.params.dataW
  counts : CountsMatch c m.ref
  written : c.written = m.placed
  pending : m.placed + m.pending.length = s.wAbs
  view : m.placed ≤ s.wvAbs
  storage : (m.ref.write m.pending).storage = s.storage
  deleted : c.afterDelete ≤ s.rAbs
  normalised : s.rAbs ≤ max c.afterDelete (s.wvAbs - (s.params.cap - 1))

/-- The monitor with the writes that a view of `v` includes placed. -/
def Shadow.place (v : Nat) (m : Shadow) : Shadow :=
  { m with ref := m.ref.write (m.pending.take (v - m.placed)), placed := v, pending := m.pending.drop (v - m.placed) }

namespace Placed

variable {s : State} {c : Counts} {m : Shadow} (hp : Placed s c m)
include hp

theorem inv : m.ref.Inv := hp.counts.inv (hp.cap ▸ s.params.two_le_cap)

/-- With the writes that wait placed too, the monitor's state is the one `s` stands for (R32). -/
theorem finish_eq (hview : s.wvAbs ≤ s.wAbs) : m.finish = s.levelA := by
  obtain ⟨tail, hend⟩ := hp.counts.after_writes hp.inv m.pending
  have hwritten : c.written + m.pending.length = s.wAbs := hp.written ▸ hp.pending
  have htail := hend.tail_eq
  have hhead := hend.headIdx
  have htailIdx := hend.tailIdx
  simp only [RefState.cap_write, hp.cap, hwritten] at htail hhead htailIdx
  have htAbs : tail = s.tAbs := by
    have := hp.deleted
    have := hp.normalised
    unfold State.tAbs
    omega
  have hcap := (RefState.cap_write m.pending m.ref).trans hp.cap
  have hdataW := (RefState.dataW_write m.pending m.ref).trans hp.dataW
  calc m.finish
      = ⟨(m.ref.write m.pending).cap, (m.ref.write m.pending).dataW, (m.ref.write m.pending).storage,
          (m.ref.write m.pending).head, (m.ref.write m.pending).tail⟩ := rfl
    _ = s.levelA := by rw [hcap, hdataW, hp.storage, hhead, htailIdx, htAbs, State.levelA]

/-- A read command first places the writes its view includes. -/
theorem place (hview : s.wvAbs ≤ s.wAbs) : ∃ c', Placed s c' (m.place s.wvAbs) := by
  have hpending := hp.pending
  have hplaced := hp.view
  have hlength : (m.pending.take (s.wvAbs - m.placed)).length = s.wvAbs - m.placed := by
    rw [List.length_take]
    omega
  obtain ⟨tail, hcounts⟩ := hp.counts.after_writes hp.inv (m.pending.take (s.wvAbs - m.placed))
  refine ⟨_, { hp with
    cap := (RefState.cap_write _ _).trans hp.cap
    dataW := (RefState.dataW_write _ _).trans hp.dataW
    counts := hcounts
    written := by dsimp only [Shadow.place]; rw [hlength, hp.written]; omega
    pending := by dsimp only [Shadow.place]; rw [List.length_drop]; omega
    view := le_rfl
    storage := by rw [Shadow.place, ← RefState.write_append, List.take_append_drop, hp.storage] }⟩

section AtView

variable (hv : m.placed = s.wvAbs)
include hv

/-- With the view's writes placed, the level-A tail is the effective tail, although the read pointer may lag. -/
theorem tail_eq_effTailAbs : c.tail = s.effTailAbs := by
  have htail := hp.counts.tail_eq
  have hdeleted := hp.deleted
  have hnormalised := hp.normalised
  rw [hp.written, hp.cap, hv] at htail
  unfold State.effTailAbs
  omega

theorem seenAs : SeenAs s m.ref where
  cap := hp.cap
  dataW := hp.dataW
  head := by rw [hp.counts.headIdx, hp.written, hv, hp.cap]
  tail := by rw [hp.counts.tailIdx, hp.tail_eq_effTailAbs hv, hp.cap]
  element pos _ hhigh hreach := by
    have hhead : m.ref.head = s.wvAbs % m.ref.cap := by rw [hp.counts.headIdx, hp.written, hv]
    have hpending : s.wvAbs + m.pending.length ≤ pos + m.ref.cap := by
      rw [← hv, hp.pending, hp.cap]
      exact hreach.le
    have hread := RefState.read_write_of_reach m.pending hhead hhigh hpending
    rw [hp.storage, hp.cap, hp.dataW] at hread
    exact hread.symm

end AtView

/-! ### The steps -/

/-- A step of the read domain that deletes nothing moves the read pointer no further than the effective tail. -/
theorem after_normalise (h : MachineInv s) (hrange : s.inRange) {e : ReadEffect} (he : EffectInv s s.skip e) :
    Placed (readCommit e s) c m := by
  have hrAbs : (readCommit e s).rAbs = s.effTailAbs := (h.readCommit_rAbs_eq he).trans (effTailAbs_eq hrange).symm
  have hview := h.wvAbs_le_readCommit e
  have hdeleted := hp.deleted
  have hnormalised := hp.normalised
  unfold State.effTailAbs at hrAbs
  exact { hp with
    view := hp.view.trans hview
    deleted := by omega
    normalised := by rw [readCommit_params]; omega }

theorem after_delete (hv : m.placed = s.wvAbs) (h : MachineInv s) (hrange : s.inRange) (k : Nat) :
    ∃ c', Placed (readCommit (deleteEffect k s) s) c' { m with ref := m.ref.deleteOldest k } := by
  have hcounts := hp.counts.after_deleteOldest hp.inv k
  have hdelete := hp.inv.deleteOldest_eq k
  have hview := h.wvAbs_le_readCommit (deleteEffect k s)
  have hafter : (Counts.run m.ref.cap [.deleteOldest k] c).afterDelete = (readCommit (deleteEffect k s) s).rAbs := by
    have hend := h.effTailAbs_add_cnt hrange
    have hskip := effTailAbs_eq hrange
    rw [h.readCommit_rAbs_eq (h.effectInv_delete k)]
    simp only [Counts.run, hp.tail_eq_effTailAbs hv, hp.written, hv]
    omega
  exact ⟨_, { hp with
    cap := by rw [hdelete]; exact hp.cap
    dataW := by rw [hdelete]; exact hp.dataW
    counts := hcounts
    view := hp.view.trans hview
    storage := by rw [hdelete, RefState.storage_write_of_tail]; exact hp.storage
    deleted := hafter.le
    normalised := hafter ▸ le_max_left _ _ }⟩

theorem after_wNop : Placed (writeStep none s) c m := { hp with }

theorem after_write (h : MachineInv s) (v : Nat) :
    Placed (writeStep (some (elemOperand s.params v)) s) c
      { m with pending := m.pending ++ [elemOperand s.params v] } := by
  have hview : (writeStep (some (elemOperand s.params v)) s).wvAbs = s.wvAbs := (writeStep_frame _ s).wvAbs
  have hfinish : m.ref.write m.pending = s.levelA := hp.finish_eq h.ws.viewAbs_le
  have hslot : pgIdx s.params s.wBin = s.levelA.head := by
    rw [h.wBin, pgIdx, Params.mod_ptrMod_mod_cap, State.levelA]
  exact { hp with
    pending := by rw [List.length_append, ← Nat.add_assoc, hp.pending]; rfl
    view := hview ▸ hp.view
    storage := by rw [RefState.write_append, hfinish, writeStep_some_storage, hslot]; rfl
    normalised := hview ▸ hp.normalised }

theorem after_syncW2R {k : Nat} (hlow : s.wvAbs ≤ k) : Placed { s with ws := s.ws.jump s.params k } c m := by
  have hview : s.wvAbs ≤ State.wvAbs { s with ws := s.ws.jump s.params k } := hlow.trans_eq (viewAbs_jump k).symm
  exact { hp with
    view := hp.view.trans hview
    normalised := hp.normalised.trans (max_le_max_left _ (Nat.sub_le_sub_right hview _)) }

end Placed

/-! ### What a streaming PEEK owes -/

/-- The beats `owed` are those a streaming PEEK has still to show, each with the element its slot holds unless the writer
has reached it. -/
def Owes (s : State) (owed : List ExpectedBeat) : Prop :=
  ∃ val, owed = streamBeats s.pk.n s.pk.trunc val s.pk.j ∧
    ∀ i, s.pk.j ≤ i → i < s.pk.n → s.wAbs < s.pkBaseAbs + i + s.params.cap →
      val i = s.storage.read s.params.dataW ((s.pkBaseAbs + i) % s.params.cap)

section Streaming

variable {s : State} (h : MachineInv s)
include h

/-- A write reaches a slot only where the writer then is `cap` ahead of its element. -/
theorem Owes.after_write {owed : List ExpectedBeat} (ho : Owes s owed) (hactive : s.pk.active = true) (v : Nat) :
    Owes (writeStep (some v) s) owed := by
  obtain ⟨val, howed, hval⟩ := ho
  refine ⟨val, howed, fun i hlow hhigh hreach => ?_⟩
  have hreach : s.wAbs + 1 < s.pkBaseAbs + i + s.params.cap := hreach
  have hbehind := h.pkBehind hactive
  have hview : s.wvAbs ≤ s.wAbs := h.ws.viewAbs_le
  have hslot := h.pgIdx_ne_pgIdx_wBin (pos := s.pkBaseAbs + i) (lt_of_lt_of_le (Nat.add_lt_add_left hhigh _)
    (hbehind.trans hview)) (by omega)
  rw [pgIdx, Params.mod_ptrMod_mod_cap] at hslot
  exact (hval i hlow hhigh (by omega)).trans (Storage.read_write_other _ _ _ _ _ hslot).symm

/-- After a PEEK's first beat the rest of the level-A response is owed. -/
theorem SeenAs.owes_peek {a : RefState} (hseen : SeenAs s a) (hrange : s.inRange) (hpk : s.pk.active = false) {k : Nat}
    (hactive : (peekEffect k s).pk.active = true) :
    Owes (readCommit (peekEffect k s) s) (peekBeats (a.peek k)).tail := by
  have hn : min s.cnt k ≠ 0 := fun hn => by
    rw [peekEffect_of_zero hn, idleEffect, hpk] at hactive
    cases hactive
  have hmore : 2 ≤ min s.cnt k := by
    rw [peekEffect_of_ne_zero hn] at hactive
    by_contra hone
    simp [hone, hpk] at hactive
  have hpos := Nat.pos_of_ne_zero hn
  rw [peekEffect_of_ne_zero hn, if_pos hmore, if_pos hmore, hseen.peek_eq h hrange, peekBeats_oldest _ hpos,
    streamBeats_of_lt hpos]
  refine ⟨a.fromTail, rfl, fun i _ hhigh hreach => ?_⟩
  have hend := h.effTailAbs_add_cnt hrange
  have hhigh : i < min s.cnt k := hhigh
  have hread := hseen.element (s.effTailAbs + i) (Nat.le_add_right _ _) (by omega) hreach
  rw [RefState.fromTail, hseen.cap, hseen.dataW, hseen.tail, Nat.mod_add_mod, hread]
  rfl

/-- Only a PEEK leaves beats owed. -/
theorem SeenAs.owes_command {a : RefState} (hseen : SeenAs s a) (hrange : s.inRange) (hpk : s.pk.active = false)
    {i : Instr} (hfits : i.wellFormed s.params = true) (hactive : (commandEffect s i).pk.active = true) :
    Owes (readCommit (commandEffect s i) s) (refCommand i a).1.tail := by
  have hheld {e : ReadEffect} (he : e.pk = s.pk) (hactive : e.pk.active = true) : False := by
    rw [he, hpk] at hactive
    cases hactive
  cases i with
  | peek k =>
    rw [commandEffect, argOperand_of_lt (of_decide_eq_true hfits)] at hactive ⊢
    exact hseen.owes_peek h hrange hpk hactive
  | wNop | write | rNop | deleteOldest | length => exact (hheld rfl hactive).elim
  | getNth k => refine (hheld ?_ hactive).elim; rw [commandEffect, getNthEffect]; split <;> rfl
  | getNthChecked k => refine (hheld ?_ hactive).elim; rw [commandEffect, getNthCheckedEffect]; split <;> rfl

end Streaming

/-! ### The monitor beside one step -/

/-- The monitor stands for the level-C state, every response so far was the level-A one, and so will a streaming PEEK's be
while the writer reaches none of its elements. -/
structure Refines (s : State) (c : Counts) (m : Shadow) : Prop extends Placed s c m where
  agrees : m.agrees = true
  streaming : s.pk.active = true → Owes s m.owed

theorem hazards_readCommit {e : ReadEffect} {s : State} (halias : (readCommit e s).aliasSeen = false)
    (hover : (readCommit e s).overrunSeen = false) :
    s.aliasSeen = false ∧ s.inRange ∧ s.overrunSeen = false ∧ e.overrun = false := by
  simpa [and_assoc] using And.intro halias hover

section Monitor

variable {m : Shadow}

/-- A read command places the writes its view includes, then runs on the level-A state. -/
theorem Shadow.command_eq {i : Instr} {v : Nat} {rsp : Response} {e : ExpectedBeat} {rest : List ExpectedBeat}
    (hbeats : (refCommand i (m.place v).ref).1 = e :: rest) :
    m.command i v rsp = { m.place v with
      ref := (refCommand i (m.place v).ref).2, owed := rest, agrees := m.agrees && e.shownBy rsp } := by
  rw [Shadow.place] at hbeats ⊢
  simp [Shadow.command, hbeats]

theorem Shadow.beat_streaming {rsp : Response} {e : ExpectedBeat} {rest : List ExpectedBeat} (howed : m.owed = e :: rest) :
    m.beat true rsp = { m with owed := rest, agrees := m.agrees && e.shownBy rsp } := by
  simp [Shadow.beat, howed]

theorem Shadow.beat_idle (rsp : Response) :
    m.beat false rsp = { m with agrees := m.agrees && noBeat.shownBy rsp } := by
  simp [Shadow.beat]

end Monitor

namespace Refines

variable {s : State} {c : Counts} {m : Shadow} (href : Refines s c m)
include href

theorem withDrivers (wProg rProg : List Nat) (sched : List Event) (draws : Nat) :
    Refines { s with wProg := wProg, rProg := rProg, sched := sched, draws := draws } c m := { href with }

theorem at_afterEvent : Refines (afterEvent s) c m := by
  obtain ⟨sched, draws, he⟩ := afterEvent_eq s
  exact he ▸ href.withDrivers s.wProg s.rProg sched draws

theorem after_wNop : Refines (writeStep none s) c m :=
  { href.toPlaced.after_wNop with agrees := href.agrees, streaming := href.streaming }

theorem after_syncR2W (k : Nat) : Refines { s with rs := s.rs.jump s.params k } c m := { href with }

theorem after_syncW2R {k : Nat} (hlow : s.wvAbs ≤ k) : Refines { s with ws := s.ws.jump s.params k } c m :=
  { href.toPlaced.after_syncW2R hlow with agrees := href.agrees, streaming := href.streaming }

variable (h : MachineInv s)
include h

theorem after_write (v : Nat) :
    Refines (writeStep (some (elemOperand s.params v)) s) c
      { m with pending := m.pending ++ [elemOperand s.params v] } :=
  { href.toPlaced.after_write h v with
    agrees := href.agrees
    streaming := fun hactive => (href.streaming hactive).after_write h hactive _ }

/-- A beat shows the first beat owed. -/
theorem after_beat (hactive : s.pk.active = true) (halias : (readCommit (beatEffect s) s).aliasSeen = false)
    (hover : (readCommit (beatEffect s) s).overrunSeen = false) :
    Refines (readCommit (beatEffect s) s) c (m.beat true (readCommit (beatEffect s) s).rsp) := by
  obtain ⟨hseen, hrange, -, hreach⟩ := hazards_readCommit halias hover
  obtain ⟨-, hindex⟩ := h.pkIndex hactive
  obtain ⟨hbase, -⟩ := h.pkPosition hseen hactive
  obtain ⟨val, howed, hval⟩ := href.streaming hactive
  have hreach : s.wAbs < s.pkBaseAbs + s.pk.j + s.params.cap := not_le.1 (of_decide_eq_false hreach)
  have hwritten : s.pkBaseAbs + s.pk.j < s.wAbs := by
    have := h.pkBehind hactive
    have hview : s.wvAbs ≤ s.wAbs := h.ws.viewAbs_le
    omega
  have hdata : readElem s (pgAdd s.params s.pk.base s.pk.j) = val s.pk.j := by
    rw [hbase, pgAdd_mod, hval _ le_rfl hindex hreach]
    exact ((unreachedElementsAreReadExactly s _ h hwritten).1 hreach).1
  have hrsp : (beatEffect s).rsp =
      ⟨true, true, val s.pk.j, s.pk.n, s.pk.trunc, decide (s.pk.j + 1 = s.pk.n)⟩ := by
    rw [← hdata]
    rfl
  rw [Shadow.beat_streaming (howed.trans (streamBeats_of_lt hindex _ _))]
  exact { href.toPlaced.after_normalise h hrange (h.effectInv_beat hactive) with
    agrees := by simp [href.agrees, ExpectedBeat.shownBy, hrsp]
    streaming := fun hmore => by
      have hpk : (readCommit (beatEffect s) s).pk = { s.pk with j := s.pk.j + 1 } := by
        by_cases hlast : s.pk.j + 1 = s.pk.n
        · simp [beatEffect, hlast] at hmore
        · simp [beatEffect, hlast]
      rw [Owes, hpk]
      exact ⟨val, rfl, fun i hlow => hval i (Nat.le_of_succ_le hlow)⟩ }

/-- An edge that accepts no command shows a streaming PEEK's beat, or nothing. -/
theorem after_noCommand (hr : s.rrstN = true) {t : State} (ht : exec .rNop s = .next t) (halias : t.aliasSeen = false)
    (hover : t.overrunSeen = false) : Refines t c (m.beat s.pk.active t.rsp) := by
  cases hactive : s.pk.active with
  | true =>
    obtain rfl := Host.Outcome.next.inj ((exec_consumer_streaming rfl hr hactive).symm.trans ht)
    exact href.after_beat h hactive halias hover
  | false =>
    obtain rfl := Host.Outcome.next.inj ((exec_consumer_ready rfl hr hactive).symm.trans ht)
    obtain ⟨-, hrange, -⟩ := hazards_readCommit halias hover
    rw [Shadow.beat_idle]
    exact { href.toPlaced.after_normalise h hrange h.effectInv_idle with
      agrees := by simp [href.agrees, ExpectedBeat.shownBy, noBeat, commandEffect, idleEffect]
      streaming := fun hmore => by simp [commandEffect, idleEffect, hactive] at hmore }

/-- An accepted command answers with the level-A operation's first beat. -/
theorem after_command (hr : s.rrstN = true) (hpk : s.pk.active = false) {i : Instr} (hi : i.port = .consumer)
    (hfits : i.wellFormed s.params = true) {t : State} (ht : exec i s = .next t) (halias : t.aliasSeen = false)
    (hover : t.overrunSeen = false) : ∃ c', Refines t c' (m.command i s.wvAbs t.rsp) := by
  obtain rfl := Host.Outcome.next.inj ((exec_consumer_ready hi hr hpk).symm.trans ht)
  obtain ⟨-, hrange, -, hreach⟩ := hazards_readCommit halias hover
  obtain ⟨c', hplaced⟩ := href.toPlaced.place h.ws.viewAbs_le
  have hseen := hplaced.seenAs rfl
  obtain ⟨e, rest, hbeats, hshown⟩ := hseen.firstBeat_command h hrange hi hfits hreach
  have howes := hseen.owes_command h hrange hpk hfits
  obtain ⟨c'', hafter⟩ : ∃ c'', Placed (readCommit (commandEffect s i) s) c''
      { m.place s.wvAbs with ref := (refCommand i (m.place s.wvAbs).ref).2 } := by
    cases i with
    | wNop | write => cases hi
    | deleteOldest k =>
      rw [commandEffect, argOperand_of_lt (of_decide_eq_true hfits)]
      exact hplaced.after_delete rfl h hrange k
    | rNop | peek | length | getNth | getNthChecked =>
      exact ⟨c', hplaced.after_normalise h hrange (h.effectInv_command_of_ne_delete (by simp))⟩
  rw [Shadow.command_eq hbeats]
  rw [hbeats] at howes
  exact ⟨c'', { hafter with
    agrees := by simp [href.agrees, hshown]
    streaming := howes }⟩

end Refines

/-! ### The monitor beside a run -/

/-- A state of a run of agents' steps from reset. -/
structure AgentRun (s : State) : Prop where
  machine : MachineInv s
  wrstN : s.wrstN = true
  rrstN : s.rrstN = true
  sched : ∀ e ∈ s.sched, e.isAgentStep = true

theorem isAgentStep_freeEvent (s : State) : (freeEvent s).isAgentStep = true := by
  unfold freeEvent
  split <;> rfl

theorem sched_afterEvent_subset (s : State) : (afterEvent s).sched ⊆ s.sched := by
  unfold afterEvent
  split
  · next hs => simp [hs]
  · exact List.Subset.refl _

/-- A hazard flag seen stays seen at an agent's step (70_reset_and_hazards.md R161, R162). -/
theorem AgentStep.hazards {s t : State} {e : Event} (h : AgentStep s e t) (halias : t.aliasSeen = false)
    (hover : t.overrunSeen = false) : s.aliasSeen = false ∧ s.overrunSeen = false := by
  have hread {e' : ReadEffect} (halias : (readCommit e' s).aliasSeen = false)
      (hover : (readCommit e' s).overrunSeen = false) : s.aliasSeen = false ∧ s.overrunSeen = false := by
    obtain ⟨hseen, -, hover, -⟩ := hazards_readCommit halias hover
    exact ⟨hseen, hover⟩
  cases h with
  | wclk present i =>
    obtain ⟨-, he⟩ | ⟨-, he⟩ := writeEdge_cases (commandElement s i) s <;> rw [he] at halias hover
    · exact ⟨halias, hover⟩
    · exact ⟨halias, hover⟩
  | rclk present i =>
    obtain ⟨-, he⟩ | ⟨-, -, he⟩ | ⟨-, -, he⟩ := readEdge_cases (commandEffect s i) s <;> rw [he] at halias hover
    · exact ⟨halias, hover⟩
    · exact hread halias hover
    · exact hread halias hover
  | heldW2R | syncW2R | heldR2W | syncR2W => exact ⟨halias, hover⟩

namespace AgentRun

variable {s t : State} (h : AgentRun s)
include h

theorem nextEvent_isAgentStep : (nextEvent s).isAgentStep = true := by
  unfold nextEvent
  split
  · next hs => exact h.sched _ (hs ▸ List.mem_cons_self)
  · exact isAgentStep_freeEvent s

theorem after_step (ht : step s = .next t) : AgentRun t := by
  have hagent := h.nextEvent_isAgentStep
  have hsame := eventStep_sameSetting hagent ht
  exact {
    machine := h.machine.after_agentStep hagent ht
    wrstN := hsame.wrstN.trans ((afterEvent_wrstN s).trans h.wrstN)
    rrstN := hsame.rrstN.trans ((afterEvent_rrstN s).trans h.rrstN)
    sched := fun e he => h.sched e (sched_afterEvent_subset s (hsame.sched ▸ he)) }

theorem hazards (ht : step s = .next t) (halias : t.aliasSeen = false) (hover : t.overrunSeen = false) :
    s.aliasSeen = false ∧ s.overrunSeen = false := by
  obtain ⟨wProg, rProg, sched, draws, hstep⟩ := step_agentStep h.nextEvent_isAgentStep ht
  exact hstep.hazards halias hover

variable {c : Counts} {m : Shadow} (href : Refines s c m)
include href

theorem refines_wclk {present : Bool} (hev : nextEvent s = .wclk present) (ht : step s = .next t) :
    Refines t c (m.observe s t) := by
  have hw : (afterEvent s).wrstN = true := (afterEvent_wrstN s).trans h.wrstN
  have hnop {u : State} (hu : Refines u c m) (hwu : u.wrstN = true) (ht : exec .wNop u = .next t) : Refines t c m := by
    obtain rfl := Host.Outcome.next.inj ((exec_wNop hwu).symm.trans ht)
    exact hu.after_wNop
  rw [step_eq hev] at ht
  have ht := unlessPartial_next ht
  obtain hf | ⟨w, rest, -, -, -, ⟨i, hi, hf⟩ | ⟨e, -, hf⟩⟩ := fetchW_cases present (afterEvent s) <;> rw [hf] at ht
  · simpa [Shadow.observe, hev, hf] using hnop href.at_afterEvent hw ht
  · have hrest := href.at_afterEvent.withDrivers rest (afterEvent s).rProg (afterEvent s).sched (afterEvent s).draws
    have hport := decode_port hi
    cases i with
    | wNop => simpa [Shadow.observe, hev, hf] using hnop hrest hw ht
    | write v =>
      obtain rfl := Host.Outcome.next.inj ((exec_write (by exact hw) v).symm.trans ht)
      simpa [Shadow.observe, hev, hf] using hrest.after_write (h.machine.at_afterEvent.withDrivers _ _ _ _) v
    | rNop | peek | deleteOldest | length | getNth | getNthChecked => cases hport
  · cases ht

theorem refines_rclk {present : Bool} (hev : nextEvent s = .rclk present) (ht : step s = .next t)
    (halias : t.aliasSeen = false) (hover : t.overrunSeen = false) : ∃ c', Refines t c' (m.observe s t) := by
  have hr : (afterEvent s).rrstN = true := (afterEvent_rrstN s).trans h.rrstN
  have hinv := h.machine.at_afterEvent
  rw [step_eq hev] at ht
  have ht := unlessPartial_next ht
  obtain hf | ⟨w, rest, -, hready, -, ⟨i, hi, hf⟩ | ⟨e, -, hf⟩⟩ := fetchR_cases present (afterEvent s) <;>
    rw [hf] at ht
  · refine ⟨c, ?_⟩
    simpa [Shadow.observe, hev, hf, h.rrstN] using href.at_afterEvent.after_noCommand hinv hr ht halias hover
  · have hrest := href.at_afterEvent.withDrivers (afterEvent s).wProg rest (afterEvent s).sched (afterEvent s).draws
    have hinv := hinv.withDrivers (afterEvent s).wProg rest (afterEvent s).sched (afterEvent s).draws
    obtain ⟨hport, hfits, -⟩ := decodedWordHasTheCommandsFields _ _ _ _ hi
    obtain ⟨-, hpk⟩ : (afterEvent s).rrstN = true ∧ (afterEvent s).pk.active = false := by
      simpa [State.rReady] using hready
    have hcommand := hrest.after_command hinv hr hpk hport hfits ht halias hover
    cases i with
    | wNop | write => cases hport
    | rNop =>
      refine ⟨c, ?_⟩
      simpa [Shadow.observe, hev, hf, h.rrstN] using hrest.after_noCommand hinv hr ht halias hover
    | peek | deleteOldest | length | getNth | getNthChecked =>
      simpa [Shadow.observe, hev, hf, h.rrstN, State.wvAbs] using hcommand
  · cases ht

theorem refines_step (ht : step s = .next t) (halias : t.aliasSeen = false) (hover : t.overrunSeen = false) :
    ∃ c', Refines t c' (m.observe s t) := by
  have hagent := h.nextEvent_isAgentStep
  cases hev : nextEvent s with
  | wclk present => exact ⟨c, h.refines_wclk href hev ht⟩
  | rclk present => exact h.refines_rclk href hev ht halias hover
  | syncW2R target =>
    refine ⟨c, ?_⟩
    have hm : m.observe s t = m := by simp [Shadow.observe, hev]
    rw [step_eq hev] at ht
    rw [hm]
    obtain ⟨-, ⟨-, rfl⟩ | ⟨-, hlow, -, rfl⟩⟩ := syncW2R_next (unlessPartial_next ht)
    · exact href.at_afterEvent
    · exact href.at_afterEvent.after_syncW2R hlow
  | syncR2W target =>
    refine ⟨c, ?_⟩
    have hm : m.observe s t = m := by simp [Shadow.observe, hev]
    rw [step_eq hev] at ht
    rw [hm]
    obtain ⟨-, ⟨-, rfl⟩ | ⟨-, -, -, rfl⟩⟩ := syncR2W_next (unlessPartial_next ht)
    · exact href.at_afterEvent
    · exact href.at_afterEvent.after_syncR2W _
  | reset | pins => simp [hev, Event.isAgentStep] at hagent

end AgentRun

/-- Along a run whose flags are 0 at its end they were 0 throughout, so the monitor refines at every step. -/
theorem refines_shadowRun (n : Nat) {s t : State} {m m' : Shadow} (h : AgentRun s)
    (href : s.aliasSeen = false → s.overrunSeen = false → ∃ c, Refines s c m)
    (hrun : shadowRun n s m = some (t, m')) (halias : t.aliasSeen = false) (hover : t.overrunSeen = false) :
    AgentRun t ∧ ∃ c, Refines t c m' := by
  induction n generalizing s m with
  | zero =>
    obtain ⟨rfl, rfl⟩ : s = t ∧ m = m' := by simpa [shadowRun] using hrun
    exact ⟨h, href halias hover⟩
  | succ n ih =>
    rw [shadowRun] at hrun
    split at hrun
    · next u hu =>
      refine ih (h.after_step hu) (fun halias hover => ?_) hrun
      obtain ⟨halias', hover'⟩ := h.hazards hu halias hover
      obtain ⟨c, hc⟩ := href halias' hover'
      exact h.refines_step hc hu halias hover
    · cases hrun
    · cases hrun

theorem refines_start (p : Params) (storage : Storage) (wProg rProg : List Nat) (sched : List Event) (draws : Nat) :
    Refines (State.afterReset p storage wProg rProg sched draws) ⟨0, 0, 0⟩ (Shadow.start p storage) where
  cap := rfl
  dataW := rfl
  counts := .init _ _ _
  written := rfl
  pending := rfl
  view := Nat.zero_le _
  storage := rfl
  deleted := le_rfl
  normalised := Nat.zero_le _
  agrees := rfl
  streaming := nofun

/-- Settles O57: the monitor refines the state at reset and after every step without a hazard, and at the end the writes
it holds back lead to the level-A state. -/
theorem hazardFreeRunsRefineLevelA : Obligations.HazardFreeRunsRefineLevelA := by
  intro p storage wProg rProg sched draws n t m hstorage hsched hrun halias hover
  have hreset : AgentRun (State.afterReset p storage wProg rProg sched draws) :=
    ⟨machineInvHoldsAtReset.2 p storage wProg rProg sched draws hstorage, rfl, rfl, hsched⟩
  obtain ⟨hend, c, href⟩ := refines_shadowRun n hreset (fun _ _ => ⟨_, refines_start ..⟩) hrun halias hover
  exact ⟨href.agrees, href.finish_eq hend.machine.ws.viewAbs_le⟩

end Sys2Proof.Machine

/-! SUPPORT. The hazards (70_reset_and_hazards.md R161, R162): where a read-domain edge leaves the read pointer, and a
paced producer, whose lead on the read pointer keeps every view in range and every element read out of its reach. -/

namespace Sys2Proof.Machine

/-! ### Where an edge leaves the read pointer (R161) -/

section Normalisation

variable {s : State} (h : MachineInv s)
include h

/-- Every consumer command normalises the read pointer, and a DELETE_OLDEST moves it further. -/
theorem MachineInv.effectInv_command_skip (i : Instr) : ∃ k, s.skip ≤ k ∧ EffectInv s k (commandEffect s i) := by
  by_cases hi : ∃ a, i = .deleteOldest a
  · obtain ⟨a, rfl⟩ := hi
    exact ⟨_, Nat.le_add_right _ _, h.effectInv_delete _⟩
  · exact ⟨_, le_rfl, h.effectInv_command_of_ne_delete fun a ha => hi ⟨a, ha⟩⟩

/-- In range an edge that moves the read pointer by `skip` or more leaves it within `cap - 1` of the view, and not
ahead of it. -/
theorem MachineInv.readCommit_rAbs_range (hrange : s.inRange) {e : ReadEffect} {k : Nat} (he : EffectInv s k e)
    (hk : s.skip ≤ k) :
    s.wvAbs ≤ (readCommit e s).rAbs + (s.params.cap - 1) ∧ (readCommit e s).rAbs ≤ s.wvAbs := by
  have htail : s.wvAbs - (s.params.cap - 1) ≤ s.rAbs + s.skip := effTailAbs_eq hrange ▸ Nat.le_max_right _ _
  have hreach := he.reach.trans (lag_le s)
  have hview := h.behindView
  rw [h.readCommit_rAbs_eq he]
  omega

end Normalisation

theorem aliasSeen_readCommit {s : State} (hrange : s.inRange) (e : ReadEffect) :
    (readCommit e s).aliasSeen = s.aliasSeen := by
  rw [readCommit_aliasSeen, decide_eq_false hrange.not_ge, Bool.or_false]

/-- Settles O48: a beat and every command move the read pointer to the effective tail at least. -/
theorem normalisationKeepsTheViewInRange : Obligations.NormalisationKeepsTheViewInRange := by
  intro s i h hr hi hrange
  obtain ⟨e, k, hk, he, hexec⟩ : ∃ e k, s.skip ≤ k ∧ EffectInv s k e ∧ exec i s = .next (readCommit e s) := by
    cases hpk : s.pk.active with
    | true => exact ⟨_, _, le_rfl, h.effectInv_beat hpk, exec_consumer_streaming hi hr hpk⟩
    | false =>
      obtain ⟨k, hk, he⟩ := h.effectInv_command_skip i
      exact ⟨_, k, hk, he, exec_consumer_ready hi hr hpk⟩
  obtain ⟨hnear, hbehind⟩ := h.readCommit_rAbs_range hrange he hk
  have hcap := s.params.two_le_cap
  have hmod := s.params.two_cap_le_ptrMod
  exact ⟨_, hexec, hnear, hbehind, aliasSeen_readCommit hrange e, fun view hview => by omega⟩

/-! ### No element read is overrun while the writer is near (R162) -/

section Reach

variable {s : State}

theorem peekEffect_overrun (hreach : s.wAbs < s.effTailAbs + s.params.cap) (a : Nat) :
    (peekEffect a s).overrun = false := by
  obtain hn | hn := eq_or_ne (min s.cnt a) 0
  · rw [peekEffect_of_zero hn, idleEffect]
  · rw [peekEffect_of_ne_zero hn]
    exact decide_eq_false hreach.not_ge

variable (h : MachineInv s) (hreach : s.wAbs < s.effTailAbs + s.params.cap)
include h hreach

/-- The writer short of `cap` elements beyond the effective tail has reached none of the elements counted. -/
theorem MachineInv.overrunNth_eq_false {i : Nat} (hi : i < s.cnt) : overrunNth s i = false := by
  have hcnt := h.effTailAbs_add_cnt_le
  exact decide_eq_false (by omega)

theorem MachineInv.getNthEffect_overrun (i : Nat) : (getNthEffect i s).overrun = false := by
  obtain hi | hi := Nat.lt_or_ge i s.cnt
  · rw [getNthEffect_of_lt hi]
    exact h.overrunNth_eq_false hreach hi
  · rw [getNthEffect_of_le hi, idleEffect]

theorem MachineInv.commandEffect_overrun (i : Instr) : (commandEffect s i).overrun = false := by
  cases i with
  | peek a => exact peekEffect_overrun hreach _
  | getNth i => exact h.getNthEffect_overrun hreach _
  | getNthChecked i =>
    rw [commandEffect]
    obtain hi | hi := Nat.lt_or_ge (argOperand s.params i) s.cnt
    · rw [getNthCheckedEffect_of_lt hi]
      exact h.getNthEffect_overrun hreach _
    · rw [getNthCheckedEffect_of_le hi, idleEffect]
  | wNop | write | rNop | deleteOldest | length => rfl

end Reach

/-! ### What a command leaves of the PEEK registers (R118) -/

section PeekRegisters

variable {s : State}

theorem peekEffect_streaming (hidle : s.pk.active = false) {a : Nat} (hactive : (peekEffect a s).pk.active = true) :
    (peekEffect a s).pkBaseAbs = s.effTailAbs := by
  obtain hn | hn := eq_or_ne (min s.cnt a) 0
  · rw [peekEffect_of_zero hn, idleEffect, hidle] at hactive
    cases hactive
  · rw [peekEffect_of_ne_zero hn] at hactive ⊢
    dsimp only at hactive ⊢
    split
    · rfl
    · next h2 =>
      rw [if_neg h2, hidle] at hactive
      cases hactive

theorem commandEffect_pk_of_ne_peek {i : Instr} (hi : ∀ a, i ≠ .peek a) : (commandEffect s i).pk = s.pk := by
  cases i with
  | peek a => exact absurd rfl (hi a)
  | getNth a =>
    rw [commandEffect, getNthEffect]
    split <;> rfl
  | getNthChecked a =>
    rw [commandEffect, getNthCheckedEffect]
    split <;> rfl
  | wNop | write | rNop | deleteOldest | length => rfl

end PeekRegisters

/-! ### The paced block with no reset half asserted -/

/-- An effect that lets no hazard happen in a paced block: it reads no overrun element, and a PEEK that streams after it
has its base where the edge leaves the read pointer. -/
structure PacedEffect (s : State) (k : Nat) (e : ReadEffect) : Prop extends EffectInv s k e where
  overrun : e.overrun = false
  streaming : e.pk.active = true → e.pkBaseAbs = s.rAbs + k

/-- A paced block that runs: its room, and no hazard seen. -/
structure PacedRun (s : State) : Prop extends PacedRoom s where
  noAlias : s.aliasSeen = false
  noOverrun : s.overrunSeen = false

namespace PacedRun

section Bounds

variable {s : State} (h : PacedRun s)
include h

theorem pacedInv : PacedInv s := ⟨.inl h.toPacedRoom, h.noAlias, h.noOverrun⟩

theorem withDrivers (wProg rProg : List Nat) (sched : List Event) (draws : Nat) :
    PacedRun { s with wProg := wProg, rProg := rProg, sched := sched, draws := draws } :=
  { h with machine := h.machine.withDrivers wProg rProg sched draws }

theorem at_afterEvent : PacedRun (afterEvent s) := by
  obtain ⟨sched, draws, he⟩ := afterEvent_eq s
  exact he ▸ h.withDrivers s.wProg s.rProg sched draws

/-- The view the write domain writes by is behind the read pointer, so the writer's lead on that is no larger. -/
theorem wAbs_le : s.wAbs ≤ s.rAbs + (s.params.cap - 2) :=
  h.room.trans (Nat.add_le_add_right h.machine.rpvAbs_le_rAbs _)

theorem inRange : s.inRange := by
  have hlead := h.wAbs_le
  have hview : s.wvAbs ≤ s.wAbs := h.machine.ws.viewAbs_le
  have hcap := s.params.two_le_cap
  have hmod := s.params.two_cap_le_ptrMod
  unfold State.inRange
  omega

/-- Nothing is evicted, so normalisation has nothing to do. -/
theorem effTailAbs_eq_rAbs : s.effTailAbs = s.rAbs := by
  have hlead := h.wAbs_le
  have hview : s.wvAbs ≤ s.wAbs := h.machine.ws.viewAbs_le
  unfold State.effTailAbs
  omega

theorem skip_eq_zero : s.skip = 0 := by
  have htail := effTailAbs_eq h.inRange
  rw [h.effTailAbs_eq_rAbs] at htail
  omega

theorem reach : s.wAbs < s.effTailAbs + s.params.cap := by
  have hlead := h.wAbs_le
  have hcap := s.params.two_le_cap
  rw [h.effTailAbs_eq_rAbs]
  omega

/-- A WRITE at `w_count ≤ cap - 3` keeps within the room (R109, R162). -/
theorem room_of_wCount (hw : s.wrstN = true) (hcount : s.wCount + 3 ≤ s.params.cap) :
    s.wAbs + 1 ≤ s.rpvAbs + (s.params.cap - 2) := by
  have hroom := h.room
  have hmod := s.params.two_cap_le_ptrMod
  have hrange : s.estimateInRange := by
    unfold State.estimateInRange
    omega
  have hestimate := (writeCountIsConservative s h.machine hw hrange).1
  omega

end Bounds

/-! ### The edges -/

section Edges

variable {s : State} (h : PacedRun s)
include h

theorem after_writeEdge {cmd : Option Nat}
    (hroom : cmd.isSome = true → s.wAbs + 1 ≤ s.rpvAbs + (s.params.cap - 2)) : PacedRun (writeEdge cmd s) := by
  have hmachine := h.machine.after_writeEdge cmd
  obtain ⟨-, he⟩ | ⟨-, he⟩ := writeEdge_cases cmd s <;> rw [he] at hmachine ⊢
  · exact h
  · have hview := h.machine.rpvAbs_le_writeStep cmd
    refine { h with machine := hmachine, room := ?_ }
    rw [writeStep_wAbs, writeStep_params]
    split
    · next hsome => exact (hroom hsome).trans (Nat.add_le_add_right hview _)
    · exact h.room.trans (Nat.add_le_add_right hview _)

theorem beat (hactive : s.pk.active = true) : PacedEffect s s.skip (beatEffect s) := by
  have hlead := h.wAbs_le
  have hcap := s.params.two_le_cap
  have hbase := h.streaming hactive
  have hskip := h.skip_eq_zero
  exact { h.machine.effectInv_beat hactive with
    overrun := decide_eq_false (by omega)
    streaming := fun _ => hskip ▸ hbase }

theorem command (hidle : s.pk.active = false) (i : Instr) : ∃ k, PacedEffect s k (commandEffect s i) := by
  have hover := h.machine.commandEffect_overrun h.reach i
  by_cases hi : ∃ a, i = .peek a
  · obtain ⟨a, rfl⟩ := hi
    refine ⟨s.skip, { h.machine.effectInv_peek _ with overrun := hover, streaming := fun hactive => ?_ }⟩
    rw [← effTailAbs_eq h.inRange]
    exact peekEffect_streaming hidle hactive
  · obtain ⟨k, he⟩ := h.machine.effectInv_command i
    refine ⟨k, { he with overrun := hover, streaming := fun hactive => ?_ }⟩
    rw [commandEffect_pk_of_ne_peek fun a ha => hi ⟨a, ha⟩, hidle] at hactive
    cases hactive

theorem after_readCommit {e : ReadEffect} {k : Nat} (he : PacedEffect s k e) (hr : s.rrstN = true) :
    PacedRun (readCommit e s) where
  machine := h.machine.after_readCommit he.toEffectInv hr
  room := (readCommit_frame e s).rpvAbs ▸ h.room
  streaming hactive := (he.streaming hactive).trans (h.machine.readCommit_rAbs_eq he.toEffectInv).symm
  noAlias := (aliasSeen_readCommit h.inRange e).trans h.noAlias
  noOverrun := (overrunSeen_readCommit he.overrun).trans h.noOverrun

theorem after_readEdge (i : Instr) : PacedRun (readEdge (commandEffect s i) s) := by
  obtain ⟨-, he⟩ | ⟨hr, hactive, he⟩ | ⟨hr, hidle, he⟩ := readEdge_cases (commandEffect s i) s <;> rw [he]
  · exact h
  · exact h.after_readCommit (h.beat hactive) hr
  · obtain ⟨k, hk⟩ := h.command hidle i
    exact h.after_readCommit hk hr

end Edges

/-! ### The events -/

section Events

variable {s t : State} (h : PacedRun s)
include h

theorem after_wclk {present : Bool}
    (hpaced : ∀ v u, fetchW present s = .command (.write v) u → s.wAbs + 1 ≤ s.rpvAbs + (s.params.cap - 2))
    (ht : eventStep (.wclk present) s = .next t) : PacedRun t := by
  have ht := unlessPartial_next ht
  obtain hf | ⟨w, rest, -, -, -, ⟨i, hi, hf⟩ | ⟨e, -, hf⟩⟩ := fetchW_cases present s <;> rw [hf] at ht
  · obtain rfl := exec_producer (i := .wNop) rfl ht
    exact h.after_writeEdge nofun
  · obtain rfl := exec_producer (decode_port hi) ht
    refine (h.withDrivers rest s.rProg s.sched s.draws).after_writeEdge fun hsome => ?_
    cases i with
    | write v => exact hpaced v _ hf
    | _ => cases hsome
  · cases ht

theorem after_agentStep {e : Event} (he : ∀ b, e ≠ .wclk b) (ht : AgentStep s e t) (hmachine : MachineInv t) :
    PacedRun t := by
  cases ht with
  | wclk present => exact absurd rfl (he present)
  | rclk _ i => exact h.after_readEdge i
  | heldW2R | heldR2W => exact h
  | syncW2R => exact { h with machine := hmachine }
  | syncR2W _ k _ _ hlow =>
    have hview : s.rpvAbs ≤ (s.rs.jump s.params k).viewAbs := (viewAbs_jump k).symm ▸ hlow
    exact { h with machine := hmachine, room := h.room.trans (Nat.add_le_add_right hview _) }

end Events

end PacedRun

theorem pacedRun_resetRegs {s : State} (w r : Bool) (h : s.storage.wf s.params.dataW s.params.cap = true) :
    PacedRun (resetRegs w r s) where
  machine := machineInv_resetRegs w r h
  room := Nat.zero_le _
  streaming := nofun
  noAlias := rfl
  noOverrun := rfl

/-- The reset pins of a paced block that runs leave it as it is, reset it, or assert one domain's reset alone. -/
theorem PacedRun.after_pins {s t : State} (h : PacedRun s) {w r : Bool} (ht : eventStep (.pins w r) s = .next t) :
    PacedInv t := by
  have hblock := h.machine.after_eventStep ht
  rw [eventStep, setPins, h.machine.whole] at ht
  obtain ⟨t', ht', hcases⟩ := setPinsWhole_cases w r s
  obtain rfl : t' = t := Host.Outcome.next.inj (ht'.symm.trans ht)
  obtain ⟨rfl, -⟩ | ⟨rfl, -⟩ | ⟨rfl, -⟩ | ⟨rfl, -⟩ := hcases
  · exact ⟨.inr h.machine.halfReset_assertWriteAlone, h.noAlias, h.noOverrun⟩
  · exact ⟨.inr h.machine.halfReset_assertReadAlone, h.noAlias, h.noOverrun⟩
  · exact (pacedRun_resetRegs w r h.machine.storage).pacedInv
  · exact ⟨hblock.imp_left fun hmachine => { h with machine := hmachine }, h.noAlias, h.noOverrun⟩

/-- A paced block that runs meets no hazard at any event. -/
theorem PacedRun.after_eventStep {s t : State} (h : PacedRun s) {e : Event}
    (hpaced : ∀ v u, fetchW true s = .command (.write v) u → e = .wclk true →
      s.wAbs + 1 ≤ s.rpvAbs + (s.params.cap - 2))
    (ht : eventStep e s = .next t) : PacedInv t := by
  have hagent (hagent : e.isAgentStep = true) (he : ∀ b, e ≠ .wclk b) : PacedInv t := by
    obtain ⟨wProg, rProg, hstep⟩ := eventStep_agentStep hagent ht
    have hmachine := h.machine.after_agentEvent hagent ht
    exact ((h.withDrivers wProg rProg s.sched s.draws).after_agentStep he hstep hmachine).pacedInv
  cases e with
  | wclk present =>
    refine (h.after_wclk (fun v u hf => ?_) ht).pacedInv
    cases present with
    | true => exact hpaced v u hf rfl
    | false => rw [fetchW_idle (.inl rfl)] at hf; cases hf
  | rclk | syncW2R | syncR2W => exact hagent rfl (by simp)
  | reset =>
    obtain rfl := Host.Outcome.next.inj ht
    exact (pacedRun_resetRegs true true h.machine.storage).pacedInv
  | pins w r => exact h.after_pins ht

/-- The producer port takes a command only out of reset (30_encoding.md R58). -/
theorem wrstN_of_fetchW_command {present : Bool} {s u : State} {i : Instr} (hf : fetchW present s = .command i u) :
    s.wrstN = true := by
  obtain hidle | ⟨_, _, -, hw, -⟩ := fetchW_cases present s
  · rw [hidle] at hf
    cases hf
  · exact hw

/-- Settles O49: the writer's lead on the read pointer stays below `cap - 1`, so every edge finds its view in range
and reads no overrun element; a half-asserted reset takes no step, and a reset starts afresh. -/
theorem pacedProducerMeetsNoHazard : Obligations.PacedProducerMeetsNoHazard := by
  rintro s t ⟨hroom | hhalf, halias, hover⟩ hpaced ht
  · have hrun : PacedRun s := { hroom with noAlias := halias, noOverrun := hover }
    refine hrun.at_afterEvent.after_eventStep (fun v u hf he => ?_) ht
    have hw : s.wrstN = true := (afterEvent_wrstN s).symm.trans (wrstN_of_fetchW_command hf)
    simpa [State.rpvAbs] using hrun.room_of_wCount hw (hpaced v u hf he)
  · have hafter := hhalf.at_afterEvent
    obtain rfl | ⟨w, r, rfl⟩ := eventStep_halfReset hafter ht
    · exact ⟨.inr hafter, (afterEvent_aliasSeen s).trans halias, (afterEvent_overrunSeen s).trans hover⟩
    · exact (pacedRun_resetRegs w r hafter.storage).pacedInv

end Sys2Proof.Machine

/-! SUPPORT. Reset as the ports see it (70_reset_and_hazards.md R156 to R158): outputs and commands during a reset, and
the orders in which the two pins may be asserted. -/

namespace Sys2Proof.Machine

/-! ### A domain in reset (R158) -/

section InReset

variable {s : State} {i : Instr}

theorem exec_producer_held (hi : i.port = .producer) (hw : s.wrstN = false) : exec i s = .next s := by
  simp [exec_eq, hi, writeEdge, hw]

theorem exec_consumer_held (hi : i.port = .consumer) (hr : s.rrstN = false) : exec i s = .next s := by
  simp [exec_eq, hi, readEdge, hr]

theorem rCount_of_reset (hr : s.rrstN = false) : s.rCount = 0 := by simp [State.rCount, hr]

end InReset

/-- Settles O22: each output is gated by its domain's pin, and so is each edge. -/
theorem nothingIsAcceptedDuringReset : Obligations.NothingIsAcceptedDuringReset := by
  intro s
  refine ⟨fun hw => ⟨hw, ?_, ?_, fun i hi => exec_producer_held hi hw, fun present hev => ?_⟩,
    fun hr => ⟨?_, rCount_of_reset hr, decide_eq_true (rCount_of_reset hr), ?_,
      fun i hi => exec_consumer_held hi hr, fun present hev => ?_⟩⟩
  · simp [State.wCount, hw]
  · simp [State.wAtCapacity, hw]
  · rw [step_eq hev, eventStep_wclk_held ((afterEvent_wrstN s).trans hw)]
  · simp [State.rReady, hr]
  · simp [State.rspOut, Response.none, hr]
  · rw [step_eq hev, eventStep_rclk_held ((afterEvent_rrstN s).trans hr)]

/-! ### Pins with no reset half asserted (R156) -/

section Whole

variable {s : State} (hwhole : s.resetAlone = none)
include hwhole

theorem eventStep_pins_whole (w r : Bool) : eventStep (.pins w r) s = setPinsWhole w r s := by
  rw [eventStep, setPins, hwhole]

theorem eventStep_pins_both (hrun : s.wrstN = true ∨ s.rrstN = true) :
    eventStep (.pins false false) s = .next (resetRegs false false s) := by
  simp [eventStep_pins_whole hwhole, setPinsWhole, hrun]

theorem eventStep_release_write (hw : s.wrstN = false) :
    eventStep (.pins true s.rrstN) s = .next { s with wrstN := true } := by
  simp [eventStep_pins_whole hwhole, setPinsWhole, hw]

theorem eventStep_release_read (hr : s.rrstN = false) :
    eventStep (.pins s.wrstN true) s = .next { s with rrstN := true } := by
  simp [eventStep_pins_whole hwhole, setPinsWhole, hr]

/-- `wrst_n` asserted alone: the whole reset beside a read domain at its reset values, else the first half of one. -/
theorem eventStep_assert_write (hw : s.wrstN = true) :
    eventStep (.pins false true) s =
      .next (if s.readAtReset then resetRegs false true s else assertWriteAlone s) := by
  cases hread : s.readAtReset <;> simp [eventStep_pins_whole hwhole, setPinsWhole, hw, hread]

/-- `rrst_n` asserted alone, in the same way. -/
theorem eventStep_assert_read (hr : s.rrstN = true) :
    eventStep (.pins true false) s =
      .next (if s.writeAtReset then resetRegs true false s else assertReadAlone s) := by
  cases hwrite : s.writeAtReset <;> simp [eventStep_pins_whole hwhole, setPinsWhole, hr, hwrite]

end Whole

/-! ### One reset asserted alone (R156, R157) -/

section Alone

variable (s : State)

@[simp] theorem writeAtReset_assertWriteAlone : (assertWriteAlone s).writeAtReset = true := by
  simp [State.writeAtReset]

@[simp] theorem readAtReset_assertReadAlone : (assertReadAlone s).readAtReset = true := by
  simp [State.readAtReset]

theorem runsBesideReset_assertWriteAlone : (assertWriteAlone s).runsBesideReset .consumer = true := rfl

theorem runsBesideReset_assertReadAlone : (assertReadAlone s).runsBesideReset .producer = true := rfl

variable {s}

/-- The second assertion completes the reset. -/
theorem eventStep_pins_overlap {port : Port} (halone : s.resetAlone = some port) :
    eventStep (.pins false false) s = .next (resetRegs false false s) := by
  rw [eventStep, setPins_half s _ _ port halone, setPinsHalf, if_pos ⟨rfl, rfl⟩]

/-- Releasing the asserted reset before the other is asserted too is a partial reset. -/
theorem eventStep_pins_released {port : Port} (halone : s.resetAlone = some port) {w r : Bool}
    (hreleased : (w = true ∧ s.wrstN = false) ∨ (r = true ∧ s.rrstN = false)) :
    eventStep (.pins w r) s = .refused .partialReset := by
  rw [eventStep, setPins_half s _ _ port halone]
  obtain ⟨hw, hr, -⟩ | ⟨hw, hr, -⟩ | ⟨-, -, hs⟩ := setPinsHalf_cases w r s
  · simp [hw, hr] at hreleased
  · simp [hw, hr] at hreleased
  · exact hs

end Alone

/-- A block out of reset with nothing half asserted, as the update that puts its pins back. -/
theorem withPins_high {s : State} (hwhole : s.resetAlone = none) (hw : s.wrstN = true) (hr : s.rrstN = true) :
    { s with wrstN := true, rrstN := true, resetAlone := none } = s := by
  obtain ⟨⟩ := s
  simp_all

/-- Settles O23: both pins at once, each release, and each pin asserted first, with what the half reset then answers. -/
theorem wholeResetAssertsEitherPinFirst : Obligations.WholeResetAssertsEitherPinFirst := by
  intro s hwhole
  refine ⟨eventStep_pins_both hwhole, eventStep_release_write hwhole, eventStep_release_read hwhole, fun hw hr =>
    ⟨fun hread => ?_, fun hwrite => ?_, fun hread => ?_, fun hwrite => ?_⟩⟩
  · rw [eventStep_assert_write hwhole hw, if_pos hread]
  · rw [eventStep_assert_read hwhole hr, if_pos hwrite]
  · refine ⟨assertWriteAlone s, ?_, rfl, rfl, writeAtReset_assertWriteAlone s, withPins_high hwhole hw hr,
      eventStep_pins_overlap (port := .producer) rfl, eventStep_wclk_held rfl,
      fun _ => unlessPartial_running (runsBesideReset_assertWriteAlone s) _,
      fun _ => unlessPartial_running (runsBesideReset_assertWriteAlone s) _,
      fun r => eventStep_pins_released (port := .producer) rfl (.inl ⟨rfl, rfl⟩)⟩
    rw [eventStep_assert_write hwhole hw, hread, if_neg Bool.false_ne_true]
  · refine ⟨assertReadAlone s, ?_, rfl, rfl, readAtReset_assertReadAlone s, withPins_high hwhole hw hr,
      eventStep_pins_overlap (port := .consumer) rfl, eventStep_rclk_held rfl,
      fun _ => unlessPartial_running (runsBesideReset_assertReadAlone s) _,
      fun _ => unlessPartial_running (runsBesideReset_assertReadAlone s) _,
      fun w => eventStep_pins_released (port := .consumer) rfl (.inr ⟨rfl, rfl⟩)⟩
    rw [eventStep_assert_read hwhole hr, hwrite, if_neg Bool.false_ne_true]

end Sys2Proof.Machine

/-! SUPPORT. The quiescing events of 70_reset_and_hazards.md R168: once the read domain's view includes every write, its
first edge takes the read pointer to the level-A tail and each further edge brings the published pointer one step
nearer. -/

namespace Sys2Proof.Machine

/-! ### Level pointers (42_pointer_generator.md R96, R102) -/

section LevelPointers

variable {p : Params} {a b : Nat}

theorem pgDist_self (ha : a < p.ptrMod) : pgDist p a a = 0 := by
  have hdist := pgDist_mod p (le_refl a)
  rwa [Nat.mod_eq_of_lt ha, Nat.sub_self, Nat.zero_mod] at hdist

theorem eq_of_pgDist_eq_zero (ha : a < p.ptrMod) (hb : b < p.ptrMod) (h : pgDist p b a = 0) : a = b := by
  by_contra hne
  have hstep := (publishedPointerComesOneStepNearer p a b ha hb).2 hne
  omega

end LevelPointers

/-! ### Idle edges of a read domain caught up (44_read_port.md R113, R117) -/

/-- `t` is reached from `s` by quiescing events, the first SyncW2R among them: the view includes every write, in range,
and the level-A state is that of `s`. -/
structure Quieting (s t : State) : Prop where
  machine : MachineInv t
  setting : SameSetting s t
  writeSide : SameWriteSide s t
  idle : t.pk.active = false
  caughtUp : t.caughtUp
  inRange : t.inRange
  tAbs : t.tAbs = s.tAbs

/-- Besides, the read pointer is at the level-A tail and the published pointer at most `d` steps behind it. -/
structure AtTail (s : State) (d : Nat) (t : State) : Prop extends Quieting s t where
  rAbs : t.rAbs = s.tAbs
  near : pgDist t.params t.rBin t.rpBin ≤ d

section Quieting

variable {s t : State} (h : Quieting s t)
include h

theorem Quieting.levelA : t.levelA = s.levelA := by
  obtain ⟨-, -, hstorage, hwAbs⟩ := h.writeSide
  rw [State.levelA, State.levelA, h.tAbs, h.setting.params, hstorage, hwAbs]

theorem Quieting.occA : t.occA = s.occA := by
  obtain ⟨-, -, -, hwAbs⟩ := h.writeSide
  rw [State.occA, State.occA, h.tAbs, hwAbs]

variable (hsync : s.params.sync = .abstract) (hr : s.rrstN = true)
include hr

theorem Quieting.eventStep_rclk : eventStep (.rclk false) t = .next (readCommit (idleEffect t) t) := by
  rw [eventStep_rclk_not_presented h.machine.whole]
  exact exec_consumer_ready rfl (h.setting.rrstN.trans hr) h.idle

include hsync

/-- An idle edge takes the read pointer to the level-A tail and leaves the level-A state. -/
theorem Quieting.after_edge :
    Quieting s (readCommit (idleEffect t) t) ∧ (readCommit (idleEffect t) t).rAbs = s.tAbs := by
  have hidle := h.machine.effectInv_idle
  have hview : (readCommit (idleEffect t) t).wvAbs = t.wvAbs := by
    rw [State.wvAbs, readCommit_ws, capture_abstract _ (h.setting.params ▸ hsync), State.wvAbs]
  have hrAbs : (readCommit (idleEffect t) t).rAbs = s.tAbs := by
    rw [h.machine.readCommit_rAbs_eq hidle, ← effTailAbs_eq h.inRange, effTailAbs_of_caughtUp h.caughtUp, h.tAbs]
  have hrange : (readCommit (idleEffect t) t).inRange := by
    rw [State.inRange, hview, h.machine.readCommit_rAbs_eq hidle, readCommit_params]
    exact h.inRange.trans_le (by omega)
  exact ⟨{
    machine := h.machine.after_readCommit hidle (h.setting.rrstN.trans hr)
    setting := { h.setting with }
    writeSide := h.writeSide
    idle := h.idle
    caughtUp := hview.trans h.caughtUp
    inRange := hrange
    tAbs := (h.machine.tAbs_readCommit hidle).trans h.tAbs }, hrAbs⟩

theorem Quieting.atTail_after_edge :
    ∃ u, eventStep (.rclk false) t = .next u ∧ AtTail s (s.params.ptrMod - 1) u := by
  obtain ⟨hquiet, hrAbs⟩ := h.after_edge hsync hr
  refine ⟨_, h.eventStep_rclk hr, { hquiet with rAbs := hrAbs, near := ?_ }⟩
  exact hquiet.setting.params ▸ Nat.le_sub_one_of_lt (pgDist_lt _ _ _)

end Quieting

section AtTail

variable {s t : State} (hsync : s.params.sync = .abstract) (hr : s.rrstN = true)
include hsync hr

/-- With the read pointer at rest an idle edge brings the published pointer one step nearer (42_pointer_generator.md
R102). -/
theorem AtTail.after_edge {d : Nat} (h : AtTail s d t) :
    ∃ u, eventStep (.rclk false) t = .next u ∧ AtTail s (d - 1) u := by
  obtain ⟨hquiet, hrAbs⟩ := h.toQuieting.after_edge hsync hr
  have f := readCommit_frame (idleEffect t) t
  have hrBin : (readCommit (idleEffect t) t).rBin = t.rBin := by
    rw [hquiet.machine.rBin, hrAbs, h.machine.rBin, h.rAbs, f.params]
  have hregs := h.machine.registerInv
  obtain ⟨hlevel, hstep⟩ := publishedPointerComesOneStepNearer t.params t.rpBin t.rBin hregs.rpBin hregs.rBin
  have hnear := h.near
  refine ⟨_, h.eventStep_rclk hr, { hquiet with rAbs := hrAbs, near := ?_ }⟩
  rw [hrBin, f.rpBin, f.params]
  obtain heq | hne := eq_or_ne t.rpBin t.rBin
  · rw [hlevel heq, heq, pgDist_self hregs.rBin]
    exact Nat.zero_le _
  · have := hstep hne
    omega

theorem AtTail.after_edges (m : Nat) {d : Nat} (h : AtTail s d t) (rest : List Event) :
    ∃ u, runEvents (List.replicate m (.rclk false) ++ rest) t = runEvents rest u ∧ AtTail s (d - m) u := by
  induction m generalizing t d with
  | zero => exact ⟨t, rfl, h⟩
  | succ m ih =>
    obtain ⟨u, hu, hnext⟩ := h.after_edge hsync hr
    obtain ⟨v, hv, hend⟩ := ih hnext
    exact ⟨v, (runEvents_cons_next hu _).trans hv, by rwa [Nat.sub_sub, Nat.add_comm] at hend⟩

end AtTail

/-! ### The views all the way (45_synchronizer.md R129) -/

/-- SyncW2R all the way starts the quiescing: the view includes every write. -/
theorem MachineInv.quieting_syncW2R {s : State} (h : MachineInv s) (hsync : s.params.sync = .abstract)
    (hr : s.rrstN = true) (hidle : s.pk.active = false) (hrange : s.wAbs < s.rAbs + s.params.ptrMod) :
    ∃ t, eventStep (.syncW2R none) s = .next t ∧ Quieting s t := by
  have hview : (s.ws.jump s.params s.wAbs).viewAbs = s.wAbs := viewAbs_jump s.wAbs
  have hnext : syncW2R none s = .next { s with ws := s.ws.jump s.params s.wAbs } :=
    syncW2R_of_mem hsync hr h.ws.viewAbs_le le_rfl
  exact ⟨_, (unlessPartial_whole _ _ _ h.whole).trans hnext, {
    machine := h.after_syncW2R hnext
    setting := ⟨rfl, rfl, rfl, rfl⟩
    writeSide := .refl s
    idle := hidle
    caughtUp := hview
    inRange := hview.trans_lt hrange
    tAbs := rfl }⟩

/-- The published pointer at the read pointer and seen by the write domain makes the write domain's estimate exact. -/
theorem MachineInv.wCount_eq_occA {s : State} (h : MachineInv s) (hw : s.wrstN = true) (htail : s.rAbs = s.tAbs)
    (hlevel : s.rpBin = s.rBin) (hseen : s.rpvAbs = s.rpAbs) : s.wCount = s.occA := by
  have ⟨hbehind, hwindow⟩ := h.tAbs_window
  have hcap := s.params.two_le_cap
  have hmod := s.params.two_cap_le_ptrMod
  obtain ⟨-, -, -, hestimate, -⟩ := arithmeticInRangeStandsForAbsoluteCounts s.params _ _ hbehind (by omega)
  rw [h.wCount_eq hw, hseen, ← h.rpBin, hlevel, h.rBin, htail, hestimate, State.occA]
  omega

/-- SyncR2W all the way ends the quiescing: with the published pointer level both counts are the occupancy. -/
theorem AtTail.quiescent_syncR2W {s u : State} (h : AtTail s 0 u) (hsync : s.params.sync = .abstract)
    (hw : s.wrstN = true) (hr : s.rrstN = true) :
    ∃ t, eventStep (.syncR2W none) u = .next t ∧ t.levelA = s.levelA ∧ t.rpBin = t.rBin ∧ t.rAbs = t.tAbs ∧
      t.effTailAbs = t.tAbs ∧ t.rCount = t.occA ∧ t.wCount = t.occA ∧ t.occA = s.occA := by
  have hw : u.wrstN = true := h.setting.wrstN.trans hw
  have hnext : syncR2W none u = .next { u with rs := u.rs.jump u.params u.rpAbs } :=
    syncR2W_of_mem (h.setting.params ▸ hsync) hw h.machine.rs.viewAbs_le le_rfl
  have hregs := h.machine.registerInv
  have hlevel : u.rpBin = u.rBin := eq_of_pgDist_eq_zero hregs.rpBin hregs.rBin (Nat.le_zero.1 h.near)
  have htail : u.rAbs = u.tAbs := h.rAbs.trans h.tAbs.symm
  have hmachine := h.machine.after_syncR2W hnext
  obtain ⟨-, -, hcount, -⟩ := readCountIsAtMostTheOccupancy _ hmachine (h.setting.rrstN.trans hr) h.inRange
  exact ⟨_, (unlessPartial_whole _ _ _ h.machine.whole).trans hnext, h.levelA, hlevel, htail,
    effTailAbs_of_caughtUp h.caughtUp, hcount h.caughtUp,
    hmachine.wCount_eq_occA hw htail hlevel (viewAbs_jump u.rpAbs), h.occA⟩

/-- Settles O50: the first edge after SyncW2R puts the read pointer at the level-A tail, fewer than M more bring the
published pointer level with it, and SyncR2W shows it to the write domain. -/
theorem quiescentCountsAgree : Obligations.QuiescentCountsAgree := by
  intro s n h hsync hw hr hidle hrange hn
  obtain ⟨m, rfl⟩ : ∃ m, n = m + 1 := Nat.exists_eq_add_one.2 (s.params.ptrMod_pos.trans_le hn)
  obtain ⟨t, ht, hquiet⟩ := h.quieting_syncW2R hsync hr hidle hrange
  obtain ⟨u, hu, htail⟩ := hquiet.atTail_after_edge hsync hr
  obtain ⟨v, hv, hend⟩ := htail.after_edges hsync hr m [.syncR2W none]
  rw [Nat.sub_eq_zero_of_le (Nat.sub_le_of_le_add hn)] at hend
  obtain ⟨w, hsettled, hfacts⟩ := hend.quiescent_syncR2W hsync hw hr
  refine ⟨w, ?_, hfacts⟩
  calc runEvents (quiesce (m + 1)) s
      = runEvents (List.replicate (m + 1) (.rclk false) ++ [.syncR2W none]) t := by
        rw [quiesce, runEvents_cons_next ht]
    _ = runEvents (List.replicate m (.rclk false) ++ [.syncR2W none]) u := runEvents_cons_next hu _
    _ = runEvents [.syncR2W none] v := hv
    _ = .next w := runEvents_cons_next hsettled []

end Sys2Proof.Machine
